-- ==== Sys2Proof/Word.lean ====
section
/-! DEFINITION. The fixed-width values the spec names (`00_scope.md` R10: bit 0 is the least-significant bit, every value
unsigned, shifts are logical and truncate). -/

namespace Sys2Proof

/-- An operand or a returned byte (`BYTE_BITS` = 8, `00_scope.md` R7). -/
abbrev Byte := BitVec 8

/-- A TargetSignature or a FuseAddress (`SIG_BITS` = 16, R7). -/
abbrev Half := BitVec 16

/-- A serial frame (`FRAME_BITS` = 11, R7, R49). -/
abbrev Frame := BitVec 11

/-- A bit position, or an index into a command's sequence (`10_state.md` R19, R23: 4 bits). -/
abbrev Nibble := BitVec 4

/-- A host command word (`30_encoding.md` R51). -/
abbrev CmdWord := BitVec 32

end Sys2Proof
end

