-- ==== Sys2Proof/Config.lean ====
section
/-! DEFINITION. What is fixed for a machine (`00_scope.md` R7, R8) and the free values the spec leaves open. The parameters of
R8 are plain data, so a statement about every state is a statement about every choice of them. -/

namespace Sys2Proof

/-- `LINE_BIND` (R8, R50): which output line carries the first operand. -/
inductive LineBind where
  | valueOnSdi
  | valueOnSii
  deriving DecidableEq, Repr

/-- A (value, address) operand pair of one transaction (`00_scope.md` R13). -/
structure Pair where
  value : Byte
  addr : Byte
  deriving DecidableEq, Repr

/-- `K_SIG` (R8): the four pairs of one signature sub-sequence. The second pair's value is the index, so only its address
byte is a parameter. -/
structure KSig where
  select : Pair
  indexAddr : Byte
  addrHigh : Pair
  dataLow : Pair
  deriving DecidableEq, Repr

/-- The two strobe address bytes of one fuse bank (`K_RF`, R8): the address strobe's and the data read's. -/
structure Strobes where
  strobe : Byte
  read : Byte
  deriving DecidableEq, Repr

/-- `K_RF` (R8, D11): the mode-select pair and the strobes of the low, high and extended banks. -/
structure KRf where
  mode : Pair
  low : Strobes
  high : Strobes
  ext : Strobes
  deriving DecidableEq, Repr

/-- The parameters of R8 that a model takes as arguments. -/
structure Config where
  /-- `T_POLL`: the poll bound, in ticks of the time source. -/
  tPoll : Nat
  lineBind : LineBind
  kSig : KSig
  kRf : KRf
  deriving DecidableEq, Repr

/-- The default `K_SIG` of R8 (general knowledge G1, not in the source: the spec's parameter, this default). -/
def KSig.standard : KSig :=
  { select := ⟨0x08, 0x4C⟩, indexAddr := 0x0C, addrHigh := ⟨0x00, 0x68⟩, dataLow := ⟨0x00, 0x6C⟩ }

/-- The default `K_RF` of R8 (general knowledge G2). -/
def KRf.standard : KRf :=
  { mode := ⟨0x04, 0x4C⟩, low := ⟨0x68, 0x6C⟩, high := ⟨0x7A, 0x7E⟩, ext := ⟨0x6A, 0x6E⟩ }

/-- Every parameter at the default of R8. -/
def Config.standard : Config :=
  { tPoll := 300, lineBind := .valueOnSdi, kSig := .standard, kRf := .standard }

/-- The selector constants of R7, R29(2), R33: the canonical FuseAddress values. -/
def Config.lfuse : Half := 0x646C

/-- See `Config.lfuse`. -/
def Config.hfuse : Half := 0x747C

/-- See `Config.lfuse`. -/
def Config.efuse : Half := 0x666E

/-- `POLL_UNIT` (R8, D4): the length of one time-unit, OPEN. No rule of the block depends on it. -/
opaque Config.pollUnit : Nat

/-- Free draw: a level of SDO that no rule fixes (I1, I2, I3, I4; R6: the target is an oracle). Applied to the draw counter. -/
opaque Config.freeLevel : Nat → Bool

/-- Free draw: a byte of target storage after a desync (R48, I3). Applied to the draw counter. -/
opaque Config.freeByte : Nat → Byte

/-- Free draw: what a host reads at a port that has no value (R28: "not as 0"; R89: "unspecified"). Applied to the draw counter. -/
opaque Config.freePort : Nat → Half

/-- Free draw: the reference target's busy time `B` (R47, I16). Applied to the draw counter. -/
opaque Config.freeBusy : Nat → Nat

/-- Free draw: the number of `clk` cycles with `tick` = 0 before the n-th tick (R70: "the number of `clk` cycles between
ticks is not specified"). It is a finite number, which is R70's weak fairness. -/
opaque Config.freeGap : Nat → Nat

end Sys2Proof
end

