-- ==== Sys2Proof/Syntax.lean ====
section
/-! DEFINITION. The six command codes (`30_encoding.md` R52) and the instructions of `spec/opcode_table.json`, one constructor
a row: the six commands and the three pseudo-instructions of R61. -/

namespace Sys2Proof

/-- The accepted command code (R52). Codes 6 and 7 are reserved (R54) and never reach the `op` register. -/
inductive Op where
  | transact
  | readSig
  | readFuses
  | writeFuse
  | readLock
  | erase
  deriving DecidableEq, Repr

/-- One constructor for each row of the opcode table. Operand order is the assembler's (R60). -/
inductive Instr where
  /-- `TRANSACT v, a` (R79). -/
  | transact (v a : Byte)
  /-- `RDSIG` (R80). -/
  | rdsig
  /-- `RDFUSES` (R84). -/
  | rdfuses
  /-- `WRFUSE addr, value` (R85). -/
  | wrfuse (addr : Half) (value : Byte)
  /-- `RDLOCK` (R88). -/
  | rdlock
  /-- `ERASE` (R91). -/
  | erase
  /-- `WRLFUSE value` = `WRFUSE LFUSE, value` (R61). -/
  | wrlfuse (value : Byte)
  /-- `WRHFUSE value` = `WRFUSE HFUSE, value` (R61). -/
  | wrhfuse (value : Byte)
  /-- `WREFUSE value` = `WRFUSE EFUSE, value` (R61). -/
  | wrefuse (value : Byte)
  deriving DecidableEq, Repr

end Sys2Proof
end

