-- ==== Sys2Proof/WellFormed.lean ====
section
/-! DEFINITION. Which instruction terms are the decoder's own spelling of their word. Operand widths are in the types; the
one thing left to check is that a WRFUSE to a named bank is spelled as that bank's pseudo-instruction (R61: two spellings of
one word, of which a decoder can answer one). An instruction that fails the check still has its meaning. -/

namespace Sys2Proof

/-- The spelling the decoder gives an instruction's word (R61). -/
def Instr.canon : Instr → Instr
  | .wrfuse addr value =>
    if addr = Config.lfuse then .wrlfuse value
    else if addr = Config.hfuse then .wrhfuse value
    else if addr = Config.efuse then .wrefuse value
    else .wrfuse addr value
  | .transact v a => .transact v a
  | .rdsig => .rdsig
  | .rdfuses => .rdfuses
  | .rdlock => .rdlock
  | .erase => .erase
  | .wrlfuse value => .wrlfuse value
  | .wrhfuse value => .wrhfuse value
  | .wrefuse value => .wrefuse value

/-- The instruction is the decoder's spelling of its word. -/
def Instr.wellFormed (i : Instr) : Bool := i.canon = i

end Sys2Proof
end

