-- ==== Sys2Proof/Decode.lean ====
section
/-! DEFINITION. The command word (`30_encoding.md` R51 to R55): a decoder total on every 32-bit word, which refuses a reserved
word by name, and after it the encoder. A command word is one value on the port `cmd_word`, not bytes of a memory, so no byte
order enters. -/

namespace Sys2Proof

/-- Why a command word is reserved (R54). -/
inductive DecodeError where
  /-- `SBZ` (bits 31:27) is not 0. -/
  | sbzNotZero
  /-- `OP` is 6 or 7. -/
  | reservedOp
  /-- A field the command does not use is not 0. -/
  | unusedFieldNotZero
  deriving DecidableEq, Repr

/-- `SBZ`, bits 31:27 (R51). -/
def fieldSbz (w : CmdWord) : BitVec 5 := w.extractLsb' 27 5

/-- `OP`, bits 26:24 (R51). -/
def fieldOp (w : CmdWord) : BitVec 3 := w.extractLsb' 24 3

/-- `A16`, bits 23:8 (R51). -/
def fieldA16 (w : CmdWord) : Half := w.extractLsb' 8 16

/-- `V8`, bits 7:0 (R51). -/
def fieldV8 (w : CmdWord) : Byte := w.extractLsb' 0 8

/-- Bits 15:8 of a 16-bit value. -/
def highByte (h : Half) : Byte := h.extractLsb' 8 8

/-- Bits 7:0 of a 16-bit value. -/
def lowByte (h : Half) : Byte := h.extractLsb' 0 8

/-- The code of a command (R52). -/
def Op.code : Op → BitVec 3
  | .transact => 0
  | .readSig => 1
  | .readFuses => 2
  | .writeFuse => 3
  | .readLock => 4
  | .erase => 5

/-- The command a code names; 6 and 7 name none (R52). -/
def Op.ofCode (c : BitVec 3) : Option Op :=
  match c.toNat with
  | 0 => some .transact
  | 1 => some .readSig
  | 2 => some .readFuses
  | 3 => some .writeFuse
  | 4 => some .readLock
  | 5 => some .erase
  | _ => none

/-- An instruction without operands, where bits 23:0 are 0 as R54 asks. -/
def decodeBare (i : Instr) (w : CmdWord) : Except DecodeError Instr :=
  if fieldA16 w = 0 ∧ fieldV8 w = 0 then .ok i else .error .unusedFieldNotZero

/-- The instruction of a command word, or why the word is reserved (R51, R52, R54). -/
def decode (w : CmdWord) : Except DecodeError Instr :=
  if fieldSbz w ≠ 0 then .error .sbzNotZero
  else
    match Op.ofCode (fieldOp w) with
    | none => .error .reservedOp
    | some .transact =>
      if highByte (fieldA16 w) = 0 then .ok (.transact (fieldV8 w) (lowByte (fieldA16 w)))
      else .error .unusedFieldNotZero
    | some .readSig => decodeBare .rdsig w
    | some .readFuses => decodeBare .rdfuses w
    | some .writeFuse => .ok (Instr.canon (.wrfuse (fieldA16 w) (fieldV8 w)))
    | some .readLock => decodeBare .rdlock w
    | some .erase => decodeBare .erase w

/-- The word of the four fields of R51. -/
def commandWord (op : Op) (a16 : Half) (v8 : Byte) : CmdWord := 0#5 ++ op.code ++ a16 ++ v8

/-- The command code of an instruction (R52; R61 for the pseudo-instructions). -/
def Instr.op : Instr → Op
  | .transact _ _ => .transact
  | .rdsig => .readSig
  | .rdfuses => .readFuses
  | .wrfuse _ _ => .writeFuse
  | .rdlock => .readLock
  | .erase => .erase
  | .wrlfuse _ => .writeFuse
  | .wrhfuse _ => .writeFuse
  | .wrefuse _ => .writeFuse

/-- The `A16` field of an instruction (R51, R61). -/
def Instr.a16 : Instr → Half
  | .transact _ a => 0#8 ++ a
  | .rdsig => 0
  | .rdfuses => 0
  | .wrfuse addr _ => addr
  | .rdlock => 0
  | .erase => 0
  | .wrlfuse _ => Config.lfuse
  | .wrhfuse _ => Config.hfuse
  | .wrefuse _ => Config.efuse

/-- The `V8` field of an instruction (R51). -/
def Instr.v8 : Instr → Byte
  | .transact v _ => v
  | .rdsig => 0
  | .rdfuses => 0
  | .wrfuse _ value => value
  | .rdlock => 0
  | .erase => 0
  | .wrlfuse value => value
  | .wrhfuse value => value
  | .wrefuse value => value

/-- The command word of an instruction (R51, R52). -/
def encode (i : Instr) : CmdWord := commandWord i.op i.a16 i.v8

/-- The instruction the decoder reads from a table row's word. Command words are 32 bits (R55), numbered as the port numbers
them; bits above `nbits` are 0. -/
def decodeTableWord (nbits w : Nat) : Option Instr :=
  if nbits ≤ 32 ∧ w < 2 ^ nbits then
    match decode (BitVec.ofNat 32 w) with
    | .ok i => some i
    | .error _ => none
  else none

end Sys2Proof
end

