-- ==== Sys2Proof/Machine/State.lean ====
section
/-! DEFINITION. Everything the spec gives the machine, as plain data: the block's registers (`10_state.md`), the event trace
(R43), and the agents around the block that the spec describes (R6): the host with its Session Controller, the target and the
time source. -/

namespace Sys2Proof.Machine

/-- The bit-channel phase `bs` (R23, R66). -/
inductive Phase where
  | idle
  | poll
  | drive
  | sample
  | clkh
  | clkl
  deriving DecidableEq, Repr

/-- How a poll ended (R43 `PollExit`). -/
inductive PollEnd where
  | ready
  | timeout
  deriving DecidableEq, Repr

/-- The events of R43 and R107, in the order the spec lists them. -/
inductive Event where
  | cmdAccept (op : Op) (argV : Byte) (argA : Half)
  | pollSample (b : Bool)
  | pollExit (reason : PollEnd)
  | drive (pos : Nibble) (sii sdi : Bool)
  | sample (pos : Nibble) (b : Bool)
  | clkHigh (pos : Nibble)
  | clkLow (pos : Nibble)
  | txDone (v a r : Byte)
  | cmdDone (op : Op)
  /-- `E_POLL_TIMEOUT`, code 1. -/
  | pollTimeout (op : Op) (step : Nibble)
  /-- `E_RESERVED_COMMAND`, code 2. -/
  | reservedCommand (cmdWord : CmdWord)
  /-- `E_CMD_WHILE_BUSY`, code 3. -/
  | cmdWhileBusy (cmdWord : CmdWord) (op : Op) (step : Nibble)
  /-- `E_RESET_ABORT`, code 4. -/
  | resetAbort (op : Op) (step pos : Nibble)
  /-- `S_UNKNOWN_SIGNATURE`, code 16, raised by the host. -/
  | unknownSignature (sig : Half)
  deriving DecidableEq, Repr

/-- The result registers (R27), each with the valid bit that R28 asks a model to keep. -/
structure Results where
  tx : Byte
  txValid : Bool
  sig : Half
  sigValid : Bool
  lfuse : Byte
  lfuseValid : Bool
  hfuse : Byte
  hfuseValid : Bool
  efuse : Byte
  efuseValid : Bool
  lock : Byte
  lockValid : Bool
  deriving DecidableEq, Repr

/-- The host ports a host can read (R17): `busy`, the result registers, the lock decoder outputs. -/
inductive Port where
  | busy
  | resTx
  | resSig
  | resLfuse
  | resHfuse
  | resEfuse
  | resLock
  | lb1Prog
  | lb2Prog
  deriving DecidableEq, Repr

/-- The reference simulated target (R45), a test fixture. `busyTimes` are the busy times `B` its next mutations draw (R47);
once they are used up `B` is a free draw. -/
structure RefTarget where
  sig1 : Byte
  sig2 : Byte
  lf : Byte
  hf : Byte
  ef : Byte
  lock : Byte
  erased : Bool
  cmd : Byte
  idx : Byte
  dat : Byte
  /-- The address byte of the preceding transaction, or none (R45). -/
  prev : Option Byte
  busyLeft : Nat
  /-- `sync`, initially true (R45); a transaction begun on the busy target makes it false, for good (R48, D25). -/
  sync : Bool := true
  /-- Out of step until the host powers the target down: a command was abandoned by `rst` (I4), or the power-up was wrong
  (R124; log 19). -/
  lost : Bool := false
  busyTimes : List Nat
  deriving DecidableEq, Repr

/-- The agent that supplies SDO (R6, R11). -/
inductive Target where
  /-- An oracle: every level is a free draw. -/
  | oracle
  /-- A line held permanently at one level (R48 last sentence, R78; log 10). -/
  | held (level : Bool)
  /-- The reference simulated target. -/
  | reference (t : RefTarget)
  deriving DecidableEq, Repr

/-- How the time source spaces its ticks (R70). -/
inductive Rate where
  /-- `gap` cycles without a tick between two ticks. -/
  | every (gap : Nat)
  /-- An unspecified finite number of cycles between two ticks (R70). -/
  | free
  /-- A time source that stopped (R121 last row, I17). -/
  | stopped
  deriving DecidableEq, Repr

/-- The time source (R6 agent 4): `wait` cycles still pass before the next tick; `count` ticks have passed. -/
structure TimeSource where
  rate : Rate
  wait : Nat
  count : Nat
  deriving DecidableEq, Repr

/-- The host's power and line-direction actions (R124). A wait is in microseconds. -/
inductive PowerAct where
  /-- Hold the response line as an output at 0. -/
  | responseOutLow
  /-- Drive target-RESET to its logical HIGH level (12 V off). -/
  | resetHigh
  | vccOn
  | wait (us : Nat)
  /-- Drive target-RESET to its logical LOW level (12 V on). -/
  | resetLow
  /-- Switch the response line to input. -/
  | responseIn
  | vccOff
  deriving DecidableEq, Repr

/-- How far the power-up of R124 has come, with the microseconds waited there. -/
inductive PowerStage where
  /-- VCC off: before step (3). -/
  | off
  /-- VCC on and 12 V off: step (3). -/
  | vccSettle (us : Nat)
  /-- 12 V on, the response line still an output: step (4). -/
  | resetAssert (us : Nat)
  /-- The response line is an input: step (5). -/
  | stabilize (us : Nat)
  /-- The power-up went another way than R124's, or a command came before its end; it stays so until VCC is off. -/
  | wrong
  deriving DecidableEq, Repr

/-- The host's power controls, the direction of the response line, and how far the target's power-up has come (R119, R124,
R128). -/
structure Rails where
  vcc : Bool
  /-- target-RESET at its logical HIGH level (12 V off). -/
  resetIsHigh : Bool
  responseIsInput : Bool
  stage : PowerStage
  deriving DecidableEq, Repr

/-- The states of the Session Controller (R94). -/
inductive SessionPhase where
  | idle
  | poweringUp
  | identifying
  | reading
  | writing
  | erasing
  | verifying
  | poweringDown
  deriving DecidableEq, Repr

/-- The requested mode (R95). -/
inductive Mode where
  | readOnly
  | erase
  | writeDefaults
  deriving DecidableEq, Repr

/-- The Session Controller (R93): its state, the requested mode, the signature it read (R98), and the commands and power
actions the present state has still to issue. -/
structure Session where
  phase : SessionPhase
  mode : Mode
  sig : Half
  todo : List Instr
  power : List PowerAct
  deriving DecidableEq, Repr

/-- One action of the host. `quiet`, `rst` and `present` are the levels of the input ports in the block's next cycle (R17),
whatever the block does then; the others wait until the block and the Session Controller are idle (R112, R93). -/
inductive HostAct where
  /-- One cycle with `rst` = 0 and `cmd_valid` = 0. -/
  | quiet
  /-- One cycle with `rst` = 1. -/
  | rst
  /-- One cycle with `cmd_valid` = 1 and this `cmd_word`. -/
  | present (w : CmdWord)
  /-- Present this command word once `busy` = 0. -/
  | issue (w : CmdWord)
  /-- Read a host port once `busy` = 0. -/
  | read (p : Port)
  /-- Request a session (R97). -/
  | request (m : Mode)
  /-- A power action made by hand. -/
  | power (a : PowerAct)
  deriving DecidableEq, Repr

/-- Why a step stops with a fault: no reason at all. The spec's one fault, a host read of a port without a value (R28), faults
the run (`State.faults`) and does not stop the machine (R115, D32; log 21). Safe: no step leaves out an effect. -/
inductive Fault
  deriving DecidableEq, Repr

/-- Why a step is refused. -/
inductive Refusal where
  /-- An instruction whose meaning is not written. Raised by no arm of this model. -/
  | notModelled (mnemonic : String)
  /-- `RESERVED_COMMAND` (R54, R111): the host presented a reserved word to an idle block. Safe: the spec refuses the run. -/
  | reservedCommand (cmdWord : CmdWord)
  /-- A command presented while `busy` = 1 (R111, R112). Safe: the spec refuses the run. -/
  | cmdWhileBusy (cmdWord : CmdWord) (op : Op) (step : Nibble)
  deriving DecidableEq, Repr

structure State where
  /-- Parameters of `00_scope.md` R8; no step changes them. -/
  cfg : Config
  /-- `busy` (R25). -/
  busy : Bool
  /-- `bs` (R23). -/
  bs : Phase
  /-- `step` (R23, R24), the program counter over the sequence ROM. -/
  step : Nibble
  /-- `op` (R23). -/
  op : Op
  /-- `arg_v` (R23). -/
  argV : Byte
  /-- `arg_a` (R23). -/
  argA : Half
  /-- `fv`, the value frame (R19). -/
  fv : Frame
  /-- `fa`, the address frame (R19). -/
  fa : Frame
  /-- `pos`, the bit position (R19). -/
  pos : Nibble
  /-- `acc`, the response accumulator (R19). -/
  acc : Frame
  /-- `rx`, the last transaction's result (R19). -/
  rx : Byte
  /-- `poll_t` (R21). -/
  pollT : Nat
  /-- `sigacc` (R22). -/
  sigacc : Half
  /-- `sii_q` (R20). -/
  sii : Bool
  /-- `sdi_q` (R20). -/
  sdi : Bool
  /-- `sci_q` (R20). -/
  sci : Bool
  /-- `RES_*` (R27, R28). -/
  res : Results
  /-- The refusal mark of R111, kept for the rest of the run, with the reason of the first refusal (log 8). -/
  mark : Option Refusal
  /-- The event trace of R43, newest first. -/
  trace : List Event
  /-- The target (R6 agent 3). -/
  target : Target
  /-- The time source (R6 agent 4). -/
  time : TimeSource
  /-- The host's coming actions (R6 agent 2). -/
  host : List HostAct
  /-- The Session Controller (`45_session.md`). -/
  sess : Session
  /-- Power controls and response-line direction (R124). -/
  rails : Rails
  /-- What the host has read from the ports, newest first. -/
  reads : List (Port × Half)
  /-- The run's faults: the host reads of a port that had no value, newest first; kept for the rest of the run (R28, I10: "the
  run is faulted at that point"; log 21). -/
  faults : List Port
  /-- The MODEL's own record of free draws: the levels the next free draws of SDO take, as far as the run lists them. -/
  levels : List Bool
  /-- The MODEL's own counter of free draws, which feeds `Config.freeLevel` once `levels` is used up, and the other free
  draws. -/
  draws : Nat
  deriving DecidableEq, Repr

/-- Result registers after reset: no value (R28, R31). The zeros are the model's and no port shows them (logs 1, 21). -/
def Results.reset : Results :=
  { tx := 0, txValid := false, sig := 0, sigValid := false, lfuse := 0, lfuseValid := false,
    hfuse := 0, hfuseValid := false, efuse := 0, efuseValid := false, lock := 0, lockValid := false }

/-- The host's power controls before a session: target unpowered, 12 V off, response line an output (R97, R124). An
output counts as held at 0, from reset on: the spec gives no level before R124's step (2) (DESIGN CHOICE, logs 2, 14). -/
def Rails.reset : Rails :=
  { vcc := false, resetIsHigh := true, responseIsInput := false, stage := .off }

/-- The Session Controller starts in `Idle` (R94, R123). -/
def Session.reset : Session :=
  { phase := .idle, mode := .writeDefaults, sig := 0, todo := [], power := [] }

/-- The machine right after reset (R31, R122, R123). Registers that R31 calls unspecified hold zero (log 1); the agents
around the block stand as log 2 says. -/
def State.reset : State :=
  { cfg := .standard, busy := false, bs := .idle, step := 0, op := .transact, argV := 0, argA := 0, fv := 0, fa := 0,
    pos := 0, acc := 0, rx := 0, pollT := 0, sigacc := 0, sii := false, sdi := false, sci := false, res := .reset,
    mark := none, trace := [], target := .oracle, time := ⟨.free, 0, 0⟩, host := [], sess := .reset, rails := .reset,
    reads := [], faults := [], levels := [], draws := 0 }

end Sys2Proof.Machine
end

