-- ==== Sys2Proof/Machine/Operands.lean ====
section
/-! DEFINITION. Operand forms: the serial frame (R49), the sequence ROM that puts each command's operands into its
transactions (R56, R58), and the transaction result as a function of the samples (R62, R63). -/

namespace Sys2Proof.Machine

/-- `F(x) = zext_11(x) << 2`: start bit 0, the eight operand bits, two sentinel zeros (R49). -/
def frame (x : Byte) : Frame := x.zeroExtend 11 <<< 2

/-- Bits 9:2 of an 11-bit word: the operand of a frame, and the result of an accumulator (R62, R75). -/
def frameByte (f : Frame) : Byte := f.extractLsb' 2 8

/-- The bit a line carries at a bit position (R71). -/
def frameBit (f : Frame) (pos : Nibble) : Bool := f.getLsbD pos.toNat

/-- `trunc_11((acc << 1) | b)` (R62, R72). -/
def shiftIn (acc : Frame) (b : Bool) : Frame := (acc <<< 1) ||| (BitVec.ofBool b).zeroExtend 11

/-- The result of a transaction from its samples in the order taken (R62, R63): the accumulator starts at 0, and each sample
is shifted in. -/
def resultOf (samples : List Bool) : Byte := frameByte (samples.foldl shiftIn 0)

/-- The levels of SII and SDI for a value frame bit and an address frame bit (R50, R68). -/
def lineLevels (b : LineBind) (valueBit addrBit : Bool) : Bool × Bool :=
  match b with
  | .valueOnSdi => (addrBit, valueBit)
  | .valueOnSii => (valueBit, addrBit)

/-- Where a transaction's result goes (R56 column "sink"). -/
inductive Sink where
  | discard
  | tx
  | sig
  | lf
  | hf
  | ef
  | lock
  deriving DecidableEq, Repr

/-- One entry of the sequence ROM (R56). -/
structure RomEntry where
  value : Byte
  addr : Byte
  sink : Sink
  deriving DecidableEq, Repr

/-- A discarded transaction with a fixed pair. -/
def Pair.entry (p : Pair) (k : Sink) : RomEntry := ⟨p.value, p.addr, k⟩

/-- READ_SIG's sub-sequence for one index (R56, R80). -/
def sigEntries (k : KSig) (idx : Byte) : List RomEntry :=
  [Pair.entry k.select .discard, ⟨idx, k.indexAddr, .discard⟩, Pair.entry k.addrHigh .discard, Pair.entry k.dataLow .sig]

/-- READ_FUSES' sub-sequence for one bank (R56, R84). -/
def fuseEntries (mode : Pair) (s : Strobes) (k : Sink) : List RomEntry :=
  [Pair.entry mode .discard, ⟨0x00, s.strobe, .discard⟩, ⟨0x00, s.read, k⟩]

/-- The sequence ROM `seq(op)` with the latched operands in place (R56, R58). -/
def seqOf (cfg : Config) (op : Op) (argV : Byte) (argA : Half) : List RomEntry :=
  match op with
  | .transact => [⟨argV, lowByte argA, .tx⟩]
  | .readSig => sigEntries cfg.kSig 0x01 ++ sigEntries cfg.kSig 0x02
  | .readFuses =>
    fuseEntries cfg.kRf.mode cfg.kRf.low .lf ++ fuseEntries cfg.kRf.mode cfg.kRf.high .hf
      ++ fuseEntries cfg.kRf.mode cfg.kRf.ext .ef
  | .writeFuse =>
    [⟨0x40, 0x4C, .discard⟩, ⟨argV, 0x2C, .discard⟩, ⟨0x00, highByte argA, .discard⟩, ⟨0x00, lowByte argA, .discard⟩]
  | .readLock => [⟨0x04, 0x4C, .discard⟩, ⟨0x00, 0x78, .discard⟩, ⟨0x00, 0x7C, .lock⟩]
  | .erase => [⟨0x80, 0x4C, .discard⟩, ⟨0x00, 0x64, .discard⟩, ⟨0x00, 0x6C, .discard⟩]

/-- `len(op)` (R36, R56). -/
def seqLen (op : Op) : Nat :=
  match op with
  | .transact => 1
  | .readSig => 8
  | .readFuses => 9
  | .writeFuse => 4
  | .readLock => 3
  | .erase => 3

/-- The sequence of the command in progress. -/
def State.seq (s : State) : List RomEntry := seqOf s.cfg s.op s.argV s.argA

end Sys2Proof.Machine
end

