-- ==== Sys2Proof/Machine/Flags.lean ====
section
/-! DEFINITION. Status. The block has no condition codes, no error flags and no timeout flag (R26), so no command computes a
flag. What it shows beside the result registers is `busy` (R25) and the two lock decoder outputs (R89). -/

namespace Sys2Proof.Machine

/-- `LB1_PROG = NOT RES_LOCK[0]` (R89): a lock bit is programmed when it is 0. -/
def lb1Prog (lock : Byte) : Bool := !lock.getLsbD 0

/-- `LB2_PROG = NOT RES_LOCK[1]` (R89). -/
def lb2Prog (lock : Byte) : Bool := !lock.getLsbD 1

/-- `sigacc <- trunc_16((sigacc << 8) + b)` (R76, R80). -/
def sigFold (sigacc : Half) (b : Byte) : Half := (sigacc <<< 8) + b.zeroExtend 16

/-- What the sink of a ROM entry does to the result registers and the signature accumulator (R76). -/
def Sink.put (k : Sink) (rx : Byte) (r : Results × Half) : Results × Half :=
  match k with
  | .discard => r
  | .tx => ({ r.1 with tx := rx, txValid := true }, r.2)
  | .sig => (r.1, sigFold r.2 rx)
  | .lf => ({ r.1 with lfuse := rx, lfuseValid := true }, r.2)
  | .hf => ({ r.1 with hfuse := rx, hfuseValid := true }, r.2)
  | .ef => ({ r.1 with efuse := rx, efuseValid := true }, r.2)
  | .lock => ({ r.1 with lock := rx, lockValid := true }, r.2)

/-- What the completion of a command does to the result registers: READ_SIG writes `RES_SIG` from the accumulator (R76). -/
def finishResults (op : Op) (r : Results × Half) : Results :=
  match op with
  | .readSig => { r.1 with sig := r.2, sigValid := true }
  | .transact => r.1
  | .readFuses => r.1
  | .writeFuse => r.1
  | .readLock => r.1
  | .erase => r.1

/-- The code of an exceptional event (R107); the line events of R43 have none. -/
def Event.code : Event → Option Nat
  | .pollTimeout _ _ => some 1
  | .reservedCommand _ => some 2
  | .cmdWhileBusy _ _ _ => some 3
  | .resetAbort _ _ _ => some 4
  | .unknownSignature _ => some 16
  | .cmdAccept _ _ _ => none
  | .pollSample _ => none
  | .pollExit _ => none
  | .drive _ _ _ => none
  | .sample _ _ => none
  | .clkHigh _ => none
  | .clkLow _ => none
  | .txDone _ _ _ => none
  | .cmdDone _ => none

end Sys2Proof.Machine
end

