-- ==== Sys2Proof/Machine/Target.lean ====
section
/-! DEFINITION. The agents that answer the block's reads: the time source (R70), the host's power controls as far as they
decide whether the target answers (R124, R128), and the target (R6) with the reference simulated target (R45 to R48). -/

namespace Sys2Proof.Machine

/-! ### Time source -/

/-- `tick` of this cycle (R70). -/
def TimeSource.tick (t : TimeSource) : Bool :=
  match t.rate with
  | .stopped => false
  | .every _ => t.wait == 0
  | .free => t.wait == 0

/-- The number of cycles without a tick after the present tick. -/
def TimeSource.gap (t : TimeSource) : Nat :=
  match t.rate with
  | .every g => g
  | .free => Config.freeGap t.count
  | .stopped => 0

/-- The time source right after its next tick. -/
def TimeSource.reload (t : TimeSource) : TimeSource := { t with wait := t.gap, count := t.count + 1 }

/-- The time source one cycle later. -/
def TimeSource.next (t : TimeSource) : TimeSource :=
  match t.rate with
  | .stopped => t
  | .every _ => if t.wait = 0 then t.reload else { t with wait := t.wait - 1 }
  | .free => if t.wait = 0 then t.reload else { t with wait := t.wait - 1 }

/-- The number of cycles in which `k` more ticks pass (a stopped source counts one cycle for each). -/
def TimeSource.cyclesFor : Nat → TimeSource → Nat
  | 0, _ => 0
  | k + 1, t =>
    match t.rate with
    | .stopped => 1 + TimeSource.cyclesFor k t
    | .every _ => t.wait + 1 + TimeSource.cyclesFor k t.reload
    | .free => t.wait + 1 + TimeSource.cyclesFor k t.reload

/-! ### Power -/

/-- The power-up actions of R124, steps (2) to (5), in order, with the three delays. -/
def powerUpActs : List PowerAct :=
  [.responseOutLow, .resetHigh, .vccOn, .wait 20, .resetLow, .wait 10, .responseIn, .wait 300]

/-- The power-down actions of R124: 12 V first, then VCC. -/
def powerDownActs : List PowerAct := [.resetHigh, .vccOff]

/-- How a power action moves the power-up (R124). VCC goes on with 12 V off and the response line an output; 12 V after at
least 20 us; the line turns to input after at least 10 us. An action that leaves its level as it is moves nothing; once the
target is up, the direction of the line is its level alone (log 14). An output counts as held at 0, so a power-up whose
step (2) finds the line an output already is right without it (DESIGN CHOICE, log 14). VCC off ends a power-up whether 12 V went off
before it, as R124 asks, or not: the spec gives the other order no effect (DESIGN CHOICE, log 14). -/
def Rails.stageAfter (a : PowerAct) (r : Rails) : PowerStage :=
  match r.stage, a with
  | _, .vccOff => .off
  | .off, .vccOn => if r.resetIsHigh && !r.responseIsInput then .vccSettle 0 else .wrong
  | .off, _ => .off
  | .vccSettle us, .wait t => .vccSettle (us + t)
  | .vccSettle us, .resetLow => if 20 ≤ us then .resetAssert 0 else .wrong
  | .vccSettle _, .responseIn => .wrong
  | .vccSettle us, _ => .vccSettle us
  | .resetAssert us, .wait t => .resetAssert (us + t)
  | .resetAssert us, .responseIn => if 10 ≤ us then .stabilize 0 else .wrong
  | .resetAssert _, .resetHigh => .wrong
  | .resetAssert us, _ => .resetAssert us
  | .stabilize us, .wait t => .stabilize (us + t)
  | .stabilize us, .responseOutLow => if 300 ≤ us then .stabilize us else .wrong
  | .stabilize _, .resetHigh => .wrong
  | .stabilize us, _ => .stabilize us
  | .wrong, _ => .wrong

/-- The levels a power action sets. -/
def Rails.drive (a : PowerAct) (r : Rails) : Rails :=
  match a with
  | .responseOutLow => { r with responseIsInput := false }
  | .resetHigh => { r with resetIsHigh := true }
  | .vccOn => { r with vcc := true }
  | .wait _ => r
  | .resetLow => { r with resetIsHigh := false }
  | .responseIn => { r with responseIsInput := true }
  | .vccOff => { r with vcc := false }

/-- The effect of one power action on the rails. -/
def Rails.act (a : PowerAct) (r : Rails) : Rails := { r.drive a with stage := r.stageAfter a }

/-- A command is accepted. R124's steps come before the first command, so one that comes while the power-up is still going on
makes it wrong (log 14); a target without power, or one that is up, stays as it is. -/
def Rails.atCommand (r : Rails) : Rails :=
  { r with
    stage :=
      match r.stage with
      | .off => .off
      | .vccSettle _ => .wrong
      | .resetAssert _ => .wrong
      | .stabilize us => if 300 ≤ us then .stabilize us else .wrong
      | .wrong => .wrong }

/-- The target was powered up as R124 says, its last wait included. -/
def Rails.powered (r : Rails) : Bool :=
  match r.stage with
  | .stabilize us => decide (300 ≤ us)
  | .off => false
  | .vccSettle _ => false
  | .resetAssert _ => false
  | .wrong => false

/-- What SDO carries is the target's answer: it was powered up as R124 says, and the response line is an input (R128).
Otherwise every sample is a free draw. -/
def Rails.ready (r : Rails) : Bool := r.powered && r.responseIsInput

/-! ### The reference target -/

/-- `sigbyte(idx)`; an index other than 1 and 2 gives a free draw (R46). -/
def RefTarget.sigByte (t : RefTarget) : Option Byte :=
  if t.idx = 1 then some t.sig1 else if t.idx = 2 then some t.sig2 else none

/-- The response byte of a transaction with address `a`, or none for a free draw (R46). -/
def RefTarget.response (t : RefTarget) (a : Byte) : Option Byte :=
  if t.cmd = 0x08 ∧ t.prev = some 0x68 ∧ a = 0x6C then t.sigByte
  else if t.cmd = 0x04 ∧ t.prev = some 0x68 ∧ a = 0x6C then some t.lf
  else if t.cmd = 0x04 ∧ t.prev = some 0x7A ∧ a = 0x7E then some t.hf
  else if t.cmd = 0x04 ∧ t.prev = some 0x6A ∧ a = 0x6E then some t.ef
  else if t.cmd = 0x04 ∧ t.prev = some 0x78 ∧ a = 0x7C then some t.lock
  else none

/-- In step with the block: neither R48's loss of step, which lasts for good, nor one that lasts until power-down (I4, R124). -/
def RefTarget.inStep (t : RefTarget) : Bool := t.sync && !t.lost

/-- The level of SDO during a poll: 0 while the target is busy, else 1, in step or not (R48). -/
def RefTarget.pollLevel (t : RefTarget) : Bool := t.busyLeft == 0

/-- The level of SDO at bit position `pos` of a transaction with address `a`, or none for a free draw. Sample `j = 10 - pos`
for `j` = 1 to 8 carries `R[8 - j]` of a target in step (R46) and is a free draw of one out of step; a busy target holds 0 at
every other sample (R48; log 19). -/
def RefTarget.bitLevel (t : RefTarget) (a : Byte) (pos : Nibble) : Option Bool :=
  if 2 ≤ pos.toNat ∧ pos.toNat ≤ 9 ∧ t.inStep = false then none
  else if t.busyLeft ≠ 0 then some false
  else if 2 ≤ pos.toNat ∧ pos.toNat ≤ 9 then (t.response a).map (fun r => r.getLsbD (pos.toNat - 2))
  else none

/-- The first bit position of a transaction begins: a target that is still busy loses step for good (R48, D25), one that was not
powered up as R124 says until it is powered down. -/
def RefTarget.begin (powered : Bool) (t : RefTarget) : RefTarget :=
  { t with sync := t.sync && t.busyLeft == 0, lost := t.lost || !powered }

/-- One tick of the time source (R48). -/
def RefTarget.onTick (t : RefTarget) : RefTarget := { t with busyLeft := t.busyLeft - 1 }

/-- The target starts the busy time of a mutation; `free` is the draw used where the fixture lists none (R47). -/
def RefTarget.startBusy (t : RefTarget) (free : Nat) : RefTarget :=
  match t.busyTimes with
  | b :: rest => { t with busyLeft := b, busyTimes := rest }
  | [] => { t with busyLeft := free }

/-- The latches a transaction loads (R47, first three cases). -/
def RefTarget.latch (t : RefTarget) (v a : Byte) : RefTarget :=
  if a = 0x4C then { t with cmd := v }
  else if a = 0x0C then { t with idx := v }
  else if a = 0x2C then { t with dat := v }
  else t

/-- The storage a transaction changes (R47, last four cases). -/
def RefTarget.mutate (t : RefTarget) (a : Byte) (free : Nat) : RefTarget :=
  if t.cmd = 0x40 ∧ t.prev = some 0x64 ∧ a = 0x6C then { t with lf := t.dat }.startBusy free
  else if t.cmd = 0x40 ∧ t.prev = some 0x74 ∧ a = 0x7C then { t with hf := t.dat }.startBusy free
  else if t.cmd = 0x40 ∧ t.prev = some 0x66 ∧ a = 0x6E then { t with ef := t.dat }.startBusy free
  else if t.cmd = 0x80 ∧ t.prev = some 0x64 ∧ a = 0x6C then
    { t with lock := t.lock ||| 0x03, erased := true }.startBusy free
  else t

/-- Every storage field becomes a free draw (R48, I3); `n` is the draw counter. -/
def RefTarget.scramble (t : RefTarget) (n : Nat) : RefTarget :=
  { t with
    sig1 := Config.freeByte n, sig2 := Config.freeByte (n + 1), lf := Config.freeByte (n + 2),
    hf := Config.freeByte (n + 3), ef := Config.freeByte (n + 4), lock := Config.freeByte (n + 5),
    erased := Config.freeLevel (n + 6) }

/-- The effect of a finished transaction (v, a) (R47, and R48 for a target out of step); `n` is the draw counter. -/
def RefTarget.finish (t : RefTarget) (v a : Byte) (n : Nat) : RefTarget :=
  if t.inStep then { (t.latch v a).mutate a (Config.freeBusy n) with prev := some a } else t.scramble n

/-- A target that has just got power: a loss of step that lasts until power-down is over (I4), one of R48 is not (D25: "for
good"); no transaction before, not busy, and what its latches hold is a free draw (log 7). `n` is the draw counter. -/
def RefTarget.initial (t : RefTarget) (n : Nat) : RefTarget :=
  { t with
    cmd := Config.freeByte (n + 7), idx := Config.freeByte (n + 8), dat := Config.freeByte (n + 9), prev := none,
    busyLeft := 0, lost := false }

/-- The target is powered down; the next power-up finds it as `RefTarget.initial` says (I4). A mutation still in progress
leaves its storage a free draw (log 7). -/
def RefTarget.powerDown (t : RefTarget) (n : Nat) : RefTarget :=
  RefTarget.initial (if t.busyLeft ≠ 0 then t.scramble n else t) n

/-- `rst` abandoned a command: the target's state becomes a free draw, storage, latches and busy time, and it is out of step
until it is powered down (R107, R122, I4; log 19). A loss of step of R48 stays. -/
def RefTarget.abort (t : RefTarget) (n : Nat) : RefTarget :=
  { t.scramble n with
    cmd := Config.freeByte (n + 7), idx := Config.freeByte (n + 8), dat := Config.freeByte (n + 9),
    prev := if Config.freeLevel (n + 10) then some (Config.freeByte (n + 10)) else none,
    busyLeft := Config.freeBusy n, lost := true }

/-- The places of the draw counter one power-down or abort uses. -/
def RefTarget.draws : Nat := 11

/-! ### The target of a run -/

/-- Apply a function to the reference target, where the target is one. -/
def Target.onReference (f : RefTarget → RefTarget) : Target → Target
  | .oracle => .oracle
  | .held b => .held b
  | .reference t => .reference (f t)

/-- The level SDO has when the block reads it in a phase, or none for a free draw: without a right power-up and the response
line as an input no target's level reaches the block (R124, R128); else the target's (R46, R48). -/
def Target.level (ready : Bool) (bs : Phase) (a : Byte) (pos : Nibble) (t : Target) : Option Bool :=
  if ready then
    match t with
    | .oracle => none
    | .held b => some b
    | .reference t =>
      match bs with
      | .poll => some t.pollLevel
      | .sample => t.bitLevel a pos
      | .idle => none
      | .drive => none
      | .clkh => none
      | .clkl => none
  else none

end Sys2Proof.Machine
end

