-- ==== Sys2Proof/Machine/Ops.lean ====
section
/-! DEFINITION. The shared operations of the block: events, reading SDO, the micro-steps of the bit channel (R66 to R75), the
sequencer (R76), acceptance (R53), reset (R122), one cycle of `clk` (R114), and running a command to its end. -/

namespace Sys2Proof.Machine

/-! ### Events -/

/-- Append an event to the trace (R43). -/
def State.emit (e : Event) (s : State) : State := { s with trace := e :: s.trace }

/-- Raise an exceptional event. No event of this block saves state, changes a mode or transfers control (R115), so taking one
is recording it. -/
def State.raise (e : Event) (s : State) : State := s.emit e

/-- The event trace in the order the block performed the events (R43). -/
def State.events (s : State) : List Event := s.trace.reverse

/-- The transaction view of an event list (R44): the (v, a, r) of its `TxDone` events, in order. -/
def txView (es : List Event) : List (Byte × Byte × Byte) :=
  es.filterMap fun
    | .txDone v a r => some (v, a, r)
    | _ => none

/-! ### SDO -/

/-- The level the target gives SDO now, or none for a free draw. -/
def State.sdoGiven (s : State) : Option Bool := s.target.level s.rails.ready s.bs (frameByte s.fa) s.pos

/-- The next free draw of a level: the run's list of them, then `Config.freeLevel`. -/
def State.freeLevel (s : State) : Bool :=
  match s.levels with
  | b :: _ => b
  | [] => Config.freeLevel s.draws

/-- `sample(SDO)`: the level SDO has now (R6, R11). -/
def State.sdo (s : State) : Bool :=
  match s.sdoGiven with
  | some b => b
  | none => s.freeLevel

/-- The block has read SDO: a free draw, if it was one, is used up. -/
def State.sdoRead (s : State) : State :=
  match s.sdoGiven with
  | some _ => s
  | none => { s with levels := s.levels.tail, draws := s.draws + 1 }

/-! ### Transactions -/

/-- `tx_start(v, a)` (R67, R68). -/
def State.txStart (v a : Byte) (s : State) : State :=
  { s with fv := frame v, fa := frame a, acc := 0, pos := 10, pollT := 0, bs := .poll }

/-- `tx_start(seq(op)[step])`: start the transaction the sequencer points at (R53, R76). -/
def State.startEntry (s : State) : State :=
  match s.seq[s.step.toNat]? with
  | some e => s.txStart e.value e.addr
  | none => s

/-- The poll micro-step's decision on the level read (R69). -/
def State.pollDecide (b : Bool) (s : State) : State :=
  if b then { s.emit (.pollExit .ready) with bs := .drive }
  else if s.cfg.tPoll ≤ s.pollT then
    { (s.emit (.pollExit .timeout)).raise (.pollTimeout s.op s.step) with bs := .drive }
  else s

/-- Poll micro-step (R69), with `poll_t` advanced by this cycle's tick after the test (R70). -/
def State.pollStep (tick : Bool) (s : State) : State :=
  let t := (s.sdoRead.emit (.pollSample s.sdo)).pollDecide s.sdo
  if tick then { t with pollT := t.pollT + 1 } else t

/-- The target sees the first bit position of a transaction begin (R48). -/
def State.targetBegin (s : State) : State :=
  if s.pos = 10 then { s with target := s.target.onReference (RefTarget.begin s.rails.powered) } else s

/-- Drive micro-step (R71). -/
def State.driveStep (s : State) : State :=
  let l := lineLevels s.cfg.lineBind (frameBit s.fv s.pos) (frameBit s.fa s.pos)
  { s.targetBegin.emit (.drive s.pos l.1 l.2) with sii := l.1, sdi := l.2, bs := .sample }

/-- Sample micro-step (R72). -/
def State.sampleStep (s : State) : State :=
  { s.sdoRead.emit (.sample s.pos s.sdo) with acc := shiftIn s.acc s.sdo, bs := .clkh }

/-- Clock-high micro-step (R73). -/
def State.clkHighStep (s : State) : State := { s.emit (.clkHigh s.pos) with sci := true, bs := .clkl }

/-- The sequencer's write of a transaction's result (R76, first half). -/
def State.sinkResult (s : State) : State :=
  match s.seq[s.step.toNat]? with
  | some e =>
    let r := e.sink.put s.rx (s.res, s.sigacc)
    { s with res := r.1, sigacc := r.2 }
  | none => s

/-- The sequencer's move to the next transaction, or the end of the command (R76, second half). -/
def State.sequence (s : State) : State :=
  if s.step.toNat + 1 < s.seq.length then { s with step := s.step + 1 }.startEntry
  else { s.emit (.cmdDone s.op) with res := finishResults s.op (s.res, s.sigacc), busy := false }

/-- The target sees a transaction end (R47, R48). -/
def State.targetFinish (s : State) : State :=
  { s with
    target := s.target.onReference fun t => t.finish (frameByte s.fv) (frameByte s.fa) s.draws
    draws := s.draws + 7 }

/-- Transaction end (R75), then the sequencer's advance (R76). -/
def State.txEnd (s : State) : State :=
  ({ s.targetFinish.emit (.txDone (frameByte s.fv) (frameByte s.fa) (frameByte s.acc)) with
      rx := frameByte s.acc, bs := .idle }).sinkResult.sequence

/-- Clock-low micro-step (R74). -/
def State.clkLowStep (s : State) : State :=
  let t := { s.emit (.clkLow s.pos) with sci := false }
  if s.pos = 0 then t.txEnd else { t with pos := s.pos - 1, bs := .drive }

/-- One micro-step of the bit channel (R66). -/
def State.micro (tick : Bool) (s : State) : State :=
  match s.bs with
  | .idle => s
  | .poll => s.pollStep tick
  | .drive => s.driveStep
  | .sample => s.sampleStep
  | .clkh => s.clkHighStep
  | .clkl => s.clkLowStep

/-! ### Acceptance and reset -/

/-- Acceptance of a command (R53): latch the operands, set `step` and `busy`, clear `sigacc` for READ_SIG, start the first
transaction. Outside the block, a power-up that is still going on is wrong from here on (R124). -/
def State.accept (op : Op) (argV : Byte) (argA : Half) (s : State) : State :=
  ({ s with
      op := op, argV := argV, argA := argA, step := 0, busy := true,
      sigacc := if op = Op.readSig then 0 else s.sigacc, rails := s.rails.atCommand }.emit (.cmdAccept op argV argA)).startEntry

/-- Every register of R31 at its reset value, but for the result registers. -/
def State.clearRegisters (s : State) : State :=
  { s with
    busy := State.reset.busy, bs := State.reset.bs, step := State.reset.step, op := State.reset.op,
    argV := State.reset.argV, argA := State.reset.argA, fv := State.reset.fv, fa := State.reset.fa,
    pos := State.reset.pos, acc := State.reset.acc, rx := State.reset.rx, pollT := State.reset.pollT,
    sigacc := State.reset.sigacc, sii := State.reset.sii, sdi := State.reset.sdi, sci := State.reset.sci }

/-- A cycle with `rst` = 1 (R122). With a command in progress it is abandoned: `E_RESET_ABORT` is raised, the result registers
keep what they hold, and the target's state becomes a free draw (R107, I4). An idle block's result registers lose their values (R31;
log 3). A session is not told: it goes on with its next command or transition as if the abandoned command were done (DESIGN
CHOICE, log 13). -/
def State.resetCycle (s : State) : State :=
  if s.busy then
    { s.clearRegisters.raise (.resetAbort s.op s.step s.pos) with
      target := s.target.onReference fun t => t.abort s.draws
      draws := s.draws + RefTarget.draws }
  else { s.clearRegisters with res := Results.reset }

/-! ### One cycle of `clk` -/

/-- The levels of the host's input ports in one cycle (R17). -/
structure Pins where
  rst : Bool
  cmdValid : Bool
  cmdWord : CmdWord
  deriving DecidableEq, Repr

/-- No reset and no command presented. -/
def Pins.quiet : Pins := ⟨false, false, 0⟩

/-- Mark the run refused (R111). A mark that is set stays: a run refused again keeps its first reason, which the spec leaves
open (DESIGN CHOICE, log 8). -/
def State.refuse (r : Refusal) (s : State) : State := { s with mark := s.mark.or (some r) }

/-- A command word presented to an idle block: accepted, or reserved (R53, R54, R114). -/
def State.presentIdle (w : CmdWord) (s : State) : State :=
  match decode w with
  | .ok i => s.accept i.op i.v8 i.a16
  | .error _ => (s.raise (.reservedCommand w)).refuse (.reservedCommand w)

/-- A command presented to a busy block: not looked at, the run is refused, and the micro-step goes on (R111, R112, R114); the
event comes before the micro-step's (log 8). -/
def State.presentBusy (w : CmdWord) (s : State) : State :=
  (s.raise (.cmdWhileBusy w s.op s.step)).refuse (.cmdWhileBusy w s.op s.step)

/-- The block's action in one cycle: `rst` first, then a presented command, then the micro-step (R66, R114, R122). That
`E_CMD_WHILE_BUSY` stands in the trace before the events of the same cycle's micro-step is the model's choice (DESIGN CHOICE,
log 8). -/
def State.clk (p : Pins) (tick : Bool) (s : State) : State :=
  if p.rst then s.resetCycle
  else if s.busy then
    if p.cmdValid then (s.presentBusy p.cmdWord).micro tick else s.micro tick
  else if p.cmdValid then s.presentIdle p.cmdWord
  else s

/-- The levels the host drives in the next cycle, and its actions after it. Only `quiet`, `rst` and `present` are levels of a
cycle; while another action waits the ports are quiet. -/
def hostPins : List HostAct → Pins × List HostAct
  | .quiet :: h => (Pins.quiet, h)
  | .rst :: h => (⟨true, false, 0⟩, h)
  | .present w :: h => (⟨false, true, w⟩, h)
  | .issue w :: h => (Pins.quiet, .issue w :: h)
  | .read p :: h => (Pins.quiet, .read p :: h)
  | .request m :: h => (Pins.quiet, .request m :: h)
  | .power a :: h => (Pins.quiet, .power a :: h)
  | [] => (Pins.quiet, [])

/-- The time source and the target's busy time advance by one cycle (R48, R70). -/
def State.envTick (s : State) : State :=
  { s with
    time := s.time.next
    target := if s.time.tick then s.target.onReference RefTarget.onTick else s.target }

/-- One cycle of the whole system: the block acts on the host's levels, the tick and SDO, then time advances. -/
def State.cycle (s : State) : State :=
  (State.clk (hostPins s.host).1 s.time.tick { s with host := (hostPins s.host).2 }).envTick

/-- `n` cycles. -/
def State.cycles : Nat → State → State
  | 0, s => s
  | n + 1, s => State.cycles n s.cycle

/-! ### Running a command to its end -/

/-- Cycles until `busy` falls, at most `n` of them. -/
def State.runFuel : Nat → State → State
  | 0, s => s
  | n + 1, s => if s.busy then State.runFuel n s.cycle else s

/-- The micro-steps and ticks one transaction can take from its start (R78): at most `T_POLL + 2` in the poll and 44 after
it. -/
def Config.txBudget (c : Config) : Nat := c.tPoll + 46

/-- The micro-steps and ticks the transaction in progress can still take (R78). -/
def State.txBudgetLeft (s : State) : Nat :=
  match s.bs with
  | .idle => 0
  | .poll => (s.cfg.tPoll + 1 - s.pollT) + 45
  | .drive => 4 * s.pos.toNat + 4
  | .sample => 4 * s.pos.toNat + 3
  | .clkh => 4 * s.pos.toNat + 2
  | .clkl => 4 * s.pos.toNat + 1

/-- The micro-steps and ticks the command in progress can still take (R78). -/
def State.budget (s : State) : Nat :=
  s.txBudgetLeft + (s.seq.length - 1 - s.step.toNat) * Config.txBudget s.cfg

/-- Run until `busy` falls. The number of cycles allowed is a bound on the command's duration (R78) whatever SDO does, as long
as the time source ticks; with a stopped time source the poll may still be waiting at the end (R121, I17), and later steps
go on with it. -/
def State.runToIdle (s : State) : State := State.runFuel (s.time.cyclesFor s.budget) s

/-- A run that is marked answers no next state (R111: no claim about it is provable). -/
def State.unlessRefused (s : State) : Host.Outcome State Fault Refusal :=
  match s.mark with
  | some r => .refused r
  | none => .next s

/-- What every command does: with `busy` = 1 it is refused (R111, R112); otherwise it is accepted (R53) and its sequence runs
to its end (R76). A word that the host presents meanwhile refuses the run (R111, R112). -/
def runCommand (op : Op) (argV : Byte) (argA : Half) (s : State) : Host.Outcome State Fault Refusal :=
  if s.busy then .refused (.cmdWhileBusy (commandWord op argA argV) s.op s.step)
  else (State.runToIdle (s.accept op argV argA).envTick).unlessRefused

end Sys2Proof.Machine
end

