-- ==== Sys2Proof/Machine/Channel.lean ====
section
/-! DEFINITION. The bit-shift controller's command (`40_bit_channel.md`). -/

namespace Sys2Proof.Machine

/-- `TRANSACT v, a` (R79): `RES_TX <- tx(v, a)`. -/
def execTransact (v a : Byte) (s : State) : Host.Outcome State Fault Refusal :=
  runCommand .transact v (0#8 ++ a) s

end Sys2Proof.Machine
end

