-- ==== Sys2Proof/Machine/Erase.lean ====
section
/-! DEFINITION. The chip-erase command injector (`44_erase.md`). -/

namespace Sys2Proof.Machine

/-- `ERASE` (R91): three transactions, issued unconditionally, nothing read back. -/
def execErase (s : State) : Host.Outcome State Fault Refusal :=
  runCommand .erase 0 0 s

end Sys2Proof.Machine
end

