-- ==== Sys2Proof/Machine/Fuse.lean ====
section
/-! DEFINITION. The fuse sequencer's commands (`42_fuse.md`) and the pseudo-instructions of `30_encoding.md` R61. -/

namespace Sys2Proof.Machine

/-- `RDFUSES` (R84): the low, high and extended banks, in that order. -/
def execRdfuses (s : State) : Host.Outcome State Fault Refusal :=
  runCommand .readFuses 0 0 s

/-- `WRFUSE addr, value` (R85): four transactions, no result register, no check of `addr`. -/
def execWrfuse (addr : Half) (value : Byte) (s : State) : Host.Outcome State Fault Refusal :=
  runCommand .writeFuse value addr s

/-- `WRLFUSE value` = `WRFUSE LFUSE, value` (R61). -/
def execWrlfuse (value : Byte) (s : State) : Host.Outcome State Fault Refusal :=
  runCommand .writeFuse value Config.lfuse s

/-- `WRHFUSE value` = `WRFUSE HFUSE, value` (R61). -/
def execWrhfuse (value : Byte) (s : State) : Host.Outcome State Fault Refusal :=
  runCommand .writeFuse value Config.hfuse s

/-- `WREFUSE value` = `WRFUSE EFUSE, value` (R61). -/
def execWrefuse (value : Byte) (s : State) : Host.Outcome State Fault Refusal :=
  runCommand .writeFuse value Config.efuse s

end Sys2Proof.Machine
end

