-- ==== Sys2Proof/Machine/Lock.lean ====
section
/-! DEFINITION. The lock-bit reader's command (`43_lock.md`). -/

namespace Sys2Proof.Machine

/-- `RDLOCK` (R88): `RES_LOCK` is the result of the third transaction. -/
def execRdlock (s : State) : Host.Outcome State Fault Refusal :=
  runCommand .readLock 0 0 s

end Sys2Proof.Machine
end

