-- ==== Sys2Proof/Machine/Signature.lean ====
section
/-! DEFINITION. The signature reader's command (`41_signature.md`). -/

namespace Sys2Proof.Machine

/-- `RDSIG` (R80): two four-transaction sub-sequences folded big-endian into `RES_SIG` (R81). -/
def execRdsig (s : State) : Host.Outcome State Fault Refusal :=
  runCommand .readSig 0 0 s

end Sys2Proof.Machine
end

