-- ==== Sys2Proof/Machine/Dispatch.lean ====
section
/-! DEFINITION. The meaning of each instruction, one arm per constructor. -/

namespace Sys2Proof.Machine

def exec (i : Instr) (s : State) : Host.Outcome State Fault Refusal :=
  match i with
  | .transact v a => Sys2Proof.Machine.execTransact v a s
  | .rdsig => Sys2Proof.Machine.execRdsig s
  | .rdfuses => Sys2Proof.Machine.execRdfuses s
  | .wrfuse addr value => Sys2Proof.Machine.execWrfuse addr value s
  | .rdlock => Sys2Proof.Machine.execRdlock s
  | .erase => Sys2Proof.Machine.execErase s
  | .wrlfuse value => Sys2Proof.Machine.execWrlfuse value s
  | .wrhfuse value => Sys2Proof.Machine.execWrhfuse value s
  | .wrefuse value => Sys2Proof.Machine.execWrefuse value s

end Sys2Proof.Machine
end

