-- ==== Sys2Proof/Machine/HostPort.lean ====
section
/-! DEFINITION. The host side of the block's ports: reading a port (R17, R28, R89), presenting a command word (R53, R54), and
the power actions (R124). -/

namespace Sys2Proof.Machine

/-- The value of a host port, or none where it has no value (R28; R89 for the decoder outputs). -/
def State.portValue (s : State) : Port → Option Half
  | .busy => some ((BitVec.ofBool s.busy).zeroExtend 16)
  | .resTx => if s.res.txValid then some (s.res.tx.zeroExtend 16) else none
  | .resSig => if s.res.sigValid then some s.res.sig else none
  | .resLfuse => if s.res.lfuseValid then some (s.res.lfuse.zeroExtend 16) else none
  | .resHfuse => if s.res.hfuseValid then some (s.res.hfuse.zeroExtend 16) else none
  | .resEfuse => if s.res.efuseValid then some (s.res.efuse.zeroExtend 16) else none
  | .resLock => if s.res.lockValid then some (s.res.lock.zeroExtend 16) else none
  | .lb1Prog => if s.res.lockValid then some ((BitVec.ofBool (lb1Prog s.res.lock)).zeroExtend 16) else none
  | .lb2Prog => if s.res.lockValid then some ((BitVec.ofBool (lb2Prog s.res.lock)).zeroExtend 16) else none

/-- The width of a port in bits (R17, R27, R89). -/
def Port.width : Port → Nat
  | .busy => 1
  | .resTx => 8
  | .resSig => 16
  | .resLfuse => 8
  | .resHfuse => 8
  | .resEfuse => 8
  | .resLock => 8
  | .lb1Prog => 1
  | .lb2Prog => 1

/-- What a host reads at a port: its value, or, where it has none, a free draw of its width ("not as 0", R28, D12; "unspecified",
R89). -/
def State.portRead (s : State) (p : Port) : Half :=
  match s.portValue p with
  | some x => x
  | none => ((Config.freePort s.draws).setWidth p.width).setWidth 16

/-- What a host's look at a port does to the run: a port without a value faults the run at that point (R28, D12, I10, R121), and
one free draw is used. The block is not touched, and it goes on (R115, D32; log 21). -/
def State.lookAt (p : Port) (s : State) : State :=
  match s.portValue p with
  | some _ => s
  | none => { s with faults := p :: s.faults, draws := s.draws + 1 }

/-- A host read of a port: what it reads is noted. -/
def hostRead (p : Port) (s : State) : Host.Outcome State Fault Refusal :=
  .next { s.lookAt p with reads := (p, s.portRead p) :: s.reads }

/-- A command word presented to an idle block: a reserved word refuses the run (R54, R111), any other runs its instruction
(R53). -/
def fetch (w : CmdWord) (s : State) : Host.Outcome State Fault Refusal :=
  match decode w with
  | .ok i => exec i s
  | .error _ => .refused (.reservedCommand w)

/-- What a power action does to a reference target: VCC off powers it down (I4); VCC on, where there was no power, finds it as a
target that has just got power (log 7). VCC off with 12 V still on, against R124's order, is no different (DESIGN CHOICE, logs
7, 14). `n` is the draw counter. -/
def RefTarget.onPower (a : PowerAct) (stage : PowerStage) (n : Nat) (t : RefTarget) : RefTarget :=
  if a = .vccOff then t.powerDown n else if a = .vccOn ∧ stage = .off then t.initial n else t

/-- A power action of the host (R124). -/
def State.powerAct (a : PowerAct) (s : State) : State :=
  { s with
    rails := s.rails.act a
    target := s.target.onReference fun t => t.onPower a s.rails.stage s.draws
    draws := s.draws + RefTarget.draws }

end Sys2Proof.Machine
end

