-- ==== Sys2Proof/Machine/Session.lean ====
section
/-! DEFINITION. The Session Controller (`45_session.md`): the host program that drives the block, outside it (R5). One step is
one command, one power action or one transition. -/

namespace Sys2Proof.Machine

/-- The mode a console token requests: `read-only`, `erase`, and `write-defaults` for any other token and for the button
(R95). -/
def modeOfToken (token : String) : Mode :=
  if token = "read-only" then .readOnly else if token = "erase" then .erase else .writeDefaults

/-- The default fuse bytes of a device; none for a bank that is not written (R96). -/
structure Profile where
  low : Byte
  high : Byte
  ext : Option Byte
  deriving DecidableEq, Repr

/-- The DeviceProfile table (R96). -/
def deviceTable : List (Half × Profile) :=
  [(0x9007, ⟨0x6A, 0xFF, none⟩), (0x910B, ⟨0x62, 0xDF, some 0xFF⟩), (0x9108, ⟨0x62, 0xDF, some 0xFF⟩),
   (0x9207, ⟨0x62, 0xDF, some 0xFF⟩), (0x9206, ⟨0x62, 0xDF, some 0xFF⟩), (0x930C, ⟨0x62, 0xDF, some 0xFF⟩),
   (0x930B, ⟨0x62, 0xDF, some 0xFF⟩)]

/-- The lookup: an equality test on all 16 bits; any other signature is unknown (R96). -/
def lookupDevice (sig : Half) : Option Profile := deviceTable.lookup sig

/-- The commands of `Reading` and of `Verifying` (R102, R103). -/
def readCommands : List Instr := [.rdfuses, .rdlock]

/-- The commands of `Writing` for a device: low, high, then the extended bank if the row has one (R100). -/
def writeCommands (p : Profile) : List Instr :=
  [.wrlfuse p.low, .wrhfuse p.high] ++ (match p.ext with
    | some e => [.wrefuse e]
    | none => [])

/-- The state after `Identifying` and the commands it issues, in the order of precedence of R99. -/
def leaveIdentifying (m : Mode) (sig : Half) : SessionPhase × List Instr :=
  match m with
  | .erase => (.erasing, [.erase])
  | .readOnly => (.reading, readCommands)
  | .writeDefaults =>
    match lookupDevice sig with
    | some p => (.writing, writeCommands p)
    | none => (.reading, readCommands)

/-- The state after a state whose commands are all done, with that state's commands and power actions (R94, R97, R101 to
R104). `Identifying` is left by `leaveIdentifying` instead. -/
def Session.advance (c : Session) : Session :=
  match c.phase with
  | .idle => c
  | .poweringUp => { c with phase := .identifying, todo := [.rdsig], power := [] }
  | .identifying => c
  | .reading => { c with phase := .poweringDown, todo := [], power := powerDownActs }
  | .writing => { c with phase := .verifying, todo := readCommands, power := [] }
  | .erasing => { c with phase := .verifying, todo := readCommands, power := [] }
  | .verifying => { c with phase := .poweringDown, todo := [], power := powerDownActs }
  | .poweringDown => { c with phase := .idle, todo := [], power := [] }

/-- A session request starts the power-up (R97). -/
def Session.start (m : Mode) (c : Session) : Session :=
  { c with phase := .poweringUp, mode := m, todo := [], power := powerUpActs }

/-- The commands one session issues, in order, for a mode and the signature it reads (R105). -/
def sessionCommands (m : Mode) (sig : Half) : List Instr :=
  [.rdsig] ++ (leaveIdentifying m sig).2 ++
    (match (leaveIdentifying m sig).1 with
      | .reading => []
      | .writing => readCommands
      | .erasing => readCommands
      | .idle => []
      | .poweringUp => []
      | .identifying => []
      | .verifying => []
      | .poweringDown => [])

/-- Leaving `Identifying` (R98, R99): the host reads `RES_SIG`, an unknown signature raises `S_UNKNOWN_SIGNATURE` (R107,
R110), and the mode decides. -/
def State.identified (sig : Half) (s : State) : State :=
  let t := if (lookupDevice sig).isNone then s.raise (.unknownSignature sig) else s
  { t with
    sess := { s.sess with
      sig := sig, phase := (leaveIdentifying s.sess.mode sig).1, todo := (leaveIdentifying s.sess.mode sig).2 } }

/-- One step of an active session on an idle block (R93): the next power action, else the next command, else the next
state. Leaving `Identifying` is a host read of `RES_SIG` (R98), which without a value faults the run and
gives a free draw (R28; `State.lookAt`, `State.portRead`). Between two commands no cycle of `clk` passes and no tick: the spec
does not say how many do (DESIGN CHOICE, log 13). -/
def sessionStep (s : State) : Host.Outcome State Fault Refusal :=
  match s.sess.power with
  | a :: rest => .next { s.powerAct a with sess := { s.sess with power := rest } }
  | [] =>
    match s.sess.todo with
    | i :: rest => exec i { s with sess := { s.sess with todo := rest } }
    | [] =>
      if s.sess.phase = .identifying then .next ((s.lookAt .resSig).identified (s.portRead .resSig))
      else .next { s with sess := s.sess.advance }

/-- What an idle system does for the host's next action that waits for it, or one idle cycle if there is none. -/
def hostStep (s : State) : Host.Outcome State Fault Refusal :=
  match s.host with
  | .issue w :: h => fetch w { s with host := h }
  | .read p :: h => hostRead p { s with host := h }
  | .request m :: h => .next { s with host := h, sess := s.sess.start m }
  | .power a :: h => .next ({ s with host := h }.powerAct a)
  | .quiet :: _ => .next s.cycle
  | .rst :: _ => .next s.cycle
  | .present w :: h => fetch w { s with host := h }
  | [] => .next s.cycle

/-- One step on a busy block: a command presented now refuses the run (R111, R112); otherwise one cycle. -/
def busyStep (s : State) : Host.Outcome State Fault Refusal :=
  match s.host with
  | .present w :: _ => .refused (.cmdWhileBusy w s.op s.step)
  | .quiet :: _ => .next s.cycle
  | .rst :: _ => .next s.cycle
  | .issue _ :: _ => .next s.cycle
  | .read _ :: _ => .next s.cycle
  | .request _ :: _ => .next s.cycle
  | .power _ :: _ => .next s.cycle
  | [] => .next s.cycle

/-- The host's next action is a level of the input ports in the next cycle, so it does not wait for a session to end. -/
def portActFirst : List HostAct → Bool
  | .quiet :: _ => true
  | .rst :: _ => true
  | .present _ :: _ => true
  | .issue _ :: _ => false
  | .read _ :: _ => false
  | .request _ :: _ => false
  | .power _ :: _ => false
  | [] => false

/-- One step on an idle block: levels of the ports first, then an active session, then the host's other actions (R93: the
session owns the lines while it lasts). -/
def idleStep (s : State) : Host.Outcome State Fault Refusal :=
  if portActFirst s.host then hostStep s
  else if s.sess.phase = .idle then hostStep s
  else sessionStep s

/-- One step of a run that is not refused. -/
def liveStep (s : State) : Host.Outcome State Fault Refusal :=
  if s.busy then busyStep s else idleStep s

end Sys2Proof.Machine
end

