-- ==== Sys2Proof/Machine/Step.lean ====
section
/-! DEFINITION. One step of the machine. A step on an idle block runs one whole command, one host or session action, or one
idle cycle; a step on a busy block is one cycle. -/

namespace Sys2Proof.Machine

/-- One step. A run with the refusal mark set is refused from there on (R111). -/
def step (s : State) : Host.Outcome State Fault Refusal :=
  match s.mark with
  | some r => .refused r
  | none => liveStep s

/-- The command word is presented on `cmd_word` with `cmd_valid` = 1 in the next cycle (R17, R53): the block fetches no
instructions (R24), and this is how it is given one. -/
def State.withFetchWord (s : State) (nbits w : Nat) : State :=
  { s with host := .present (BitVec.ofNat 32 (w % 2 ^ nbits)) :: s.host }

end Sys2Proof.Machine
end

