-- ==== Sys2Proof/Machine/Asm.lean ====
section
/-! DEFINITION. The assembler syntax of `30_encoding.md` R60, R61: one command a line, `;` starts a comment, numbers are
hexadecimal with `0x` or decimal, and an operand that does not fit its width is an error. -/

namespace Sys2Proof.Machine

/-- Why a line is no command. -/
inductive AsmError where
  | unknownMnemonic
  | operandCount
  | badOperand
  | operandTooWide
  deriving DecidableEq, Repr

/-- Blank characters of a line. -/
def isBlank (c : Char) : Bool := c = ' ' || c = '\t'

/-- A line without its blanks at both ends. -/
def trimBlanks (cs : List Char) : List Char := ((cs.dropWhile isBlank).reverse.dropWhile isBlank).reverse

/-- The parts of a line between commas. -/
def splitCommas : List Char → List (List Char)
  | [] => [[]]
  | c :: cs =>
    if c = ',' then [] :: splitCommas cs
    else
      match splitCommas cs with
      | part :: parts => (c :: part) :: parts
      | [] => [[c]]

/-- The value of one digit in a base. -/
def digitValue (base : Nat) (c : Char) : Option Nat :=
  let n := c.toNat
  let d :=
    if 48 ≤ n ∧ n ≤ 57 then some (n - 48)
    else if 97 ≤ n ∧ n ≤ 102 then some (n - 87)
    else if 65 ≤ n ∧ n ≤ 70 then some (n - 55)
    else none
  match d with
  | some k => if k < base then some k else none
  | none => none

/-- The value of a run of digits, most significant first. -/
def digitsValue (base : Nat) : List Char → Nat → Option Nat
  | [], n => some n
  | c :: cs, n =>
    match digitValue base c with
    | some d => digitsValue base cs (n * base + d)
    | none => none

/-- A number of R60. -/
def parseNumber : List Char → Option Nat
  | [] => none
  | '0' :: 'x' :: d :: ds => digitsValue 16 (d :: ds) 0
  | cs => digitsValue 10 cs 0

/-- The symbols of R61 that may stand for a FuseAddress. -/
def parseSymbol (cs : List Char) : Option Half :=
  if cs = "LFUSE".toList then some Config.lfuse
  else if cs = "HFUSE".toList then some Config.hfuse
  else if cs = "EFUSE".toList then some Config.efuse
  else none

/-- An operand of a given width; a wider one is an error, not a truncation (R60). -/
def operand (width : Nat) (cs : List Char) : Except AsmError (BitVec width) :=
  match parseNumber cs with
  | some n => if n < 2 ^ width then .ok (BitVec.ofNat width n) else .error .operandTooWide
  | none => .error .badOperand

/-- The address operand of WRFUSE: a symbol or a number (R60, R61). -/
def addrOperand (cs : List Char) : Except AsmError Half :=
  match parseSymbol cs with
  | some a => .ok a
  | none => operand 16 cs

/-- A command of two operands. -/
def asmTwo {α β : Type} (x : Except AsmError α) (y : Except AsmError β) (f : α → β → Instr) : Except AsmError Instr :=
  match x, y with
  | .ok a, .ok b => .ok (f a b)
  | .error e, _ => .error e
  | .ok _, .error e => .error e

/-- A command of one operand. -/
def asmOne {α : Type} (x : Except AsmError α) (f : α → Instr) : Except AsmError Instr :=
  match x with
  | .ok a => .ok (f a)
  | .error e => .error e

/-- A command from its mnemonic and operands (R60, R61). -/
def assembleCommand (mnemonic : List Char) (ops : List (List Char)) : Except AsmError Instr :=
  if mnemonic = "TRANSACT".toList then
    match ops with
    | [v, a] => asmTwo (operand 8 v) (operand 8 a) .transact
    | _ => .error .operandCount
  else if mnemonic = "WRFUSE".toList then
    match ops with
    | [addr, value] => asmTwo (addrOperand addr) (operand 8 value) .wrfuse
    | _ => .error .operandCount
  else if mnemonic = "WRLFUSE".toList then
    match ops with
    | [value] => asmOne (operand 8 value) .wrlfuse
    | _ => .error .operandCount
  else if mnemonic = "WRHFUSE".toList then
    match ops with
    | [value] => asmOne (operand 8 value) .wrhfuse
    | _ => .error .operandCount
  else if mnemonic = "WREFUSE".toList then
    match ops with
    | [value] => asmOne (operand 8 value) .wrefuse
    | _ => .error .operandCount
  else
    let bare (i : Instr) : Except AsmError Instr :=
      match ops with
      | [] => .ok i
      | _ :: _ => .error .operandCount
    if mnemonic = "RDSIG".toList then bare .rdsig
    else if mnemonic = "RDFUSES".toList then bare .rdfuses
    else if mnemonic = "RDLOCK".toList then bare .rdlock
    else if mnemonic = "ERASE".toList then bare .erase
    else .error .unknownMnemonic

/-- One line: a command, nothing (a blank line or a comment), or an error (R60). -/
def assembleLine (line : String) : Except AsmError (Option Instr) :=
  let text := trimBlanks (line.toList.takeWhile (fun c => c ≠ ';'))
  match text with
  | [] => .ok none
  | _ :: _ =>
    let mnemonic := text.takeWhile (fun c => !isBlank c)
    let rest := trimBlanks (text.dropWhile (fun c => !isBlank c))
    let ops := match rest with
      | [] => []
      | _ :: _ => (splitCommas rest).map trimBlanks
    match assembleCommand mnemonic ops with
    | .ok i => .ok (some i)
    | .error e => .error e

/-- A program, one command a line (R60). -/
def assemble : List String → Except AsmError (List Instr)
  | [] => .ok []
  | line :: rest =>
    match assembleLine line, assemble rest with
    | .ok none, .ok is => .ok is
    | .ok (some i), .ok is => .ok (i :: is)
    | .error e, _ => .error e
    | .ok _, .error e => .error e

/-- A program as the host's actions: each command word is presented once `busy` = 0 (R112). -/
def hostProgram (is : List Instr) : List HostAct := is.map fun i => .issue (encode i)

end Sys2Proof.Machine
end

