-- ==== Sys2Proof/Safety.lean ====
section
/-! DEFINITION. The terms claims use: when a command can run undisturbed, the record of one transaction and of one command as
the spec's transaction level gives them (R14, R43, R44), and the invariant of the machine's registers. -/

namespace Sys2Proof.Machine

/-! ### Conditions on a state -/

/-- Up to the first action that waits for an idle block, the host drives neither `rst` nor `cmd_valid` (R112: the host's
duty). -/
def hostQuiet : List HostAct → Bool
  | .quiet :: h => hostQuiet h
  | .rst :: _ => false
  | .present _ :: _ => false
  | .issue _ :: _ => true
  | .read _ :: _ => true
  | .request _ :: _ => true
  | .power _ :: _ => true
  | [] => true

/-- The time source does not stop (R70: weak fairness). -/
def TimeSource.fair (t : TimeSource) : Bool :=
  match t.rate with
  | .every _ => true
  | .free => true
  | .stopped => false

/-- An idle block in a run that is not refused, a host that does its duty, and a time source that ticks. -/
structure State.Ready (s : State) : Prop where
  idle : s.busy = false
  unmarked : s.mark = none
  quiet : hostQuiet s.host = true
  fair : s.time.fair = true

/-! ### One transaction -/

/-- What one transaction met at SDO: `waits` poll samples that kept it waiting, how the poll ended, and the 11 samples in the
order taken (R63, R69). -/
structure TxRecord where
  waits : Nat
  ended : PollEnd
  bits : List Bool
  deriving DecidableEq, Repr

/-- The byte a transaction returns (R63). -/
def TxRecord.result (t : TxRecord) : Byte := resultOf t.bits

/-- The events of a poll (R69). -/
def pollEvents (op : Op) (step : Nat) (waits : Nat) (ended : PollEnd) : List Event :=
  List.replicate waits (.pollSample false) ++
    match ended with
    | .ready => [.pollSample true, .pollExit .ready]
    | .timeout => [.pollSample false, .pollExit .timeout, .pollTimeout op (BitVec.ofNat 4 step)]

/-- The drive event of bit position `10 - j` for the frames of (v, a) (R68, R71). -/
def driveEvent (b : LineBind) (v a : Byte) (j : Nat) : Event :=
  let pos : Nibble := BitVec.ofNat 4 (10 - j)
  let l := lineLevels b (frameBit (frame v) pos) (frameBit (frame a) pos)
  .drive pos l.1 l.2

/-- The four events of bit position `10 - j`: drive, sample, clock high, clock low (R62, R66). -/
def bitEvents (b : LineBind) (v a : Byte) (j : Nat) (bit : Bool) : List Event :=
  [driveEvent b v a j, .sample (BitVec.ofNat 4 (10 - j)) bit, .clkHigh (BitVec.ofNat 4 (10 - j)),
    .clkLow (BitVec.ofNat 4 (10 - j))]

/-- The events of the bit positions from 10 downwards, one for each sample. -/
def bitsEvents (b : LineBind) (v a : Byte) (bits : List Bool) : List Event :=
  bits.zipIdx.flatMap fun p => bitEvents b v a p.2 p.1

/-- The events of one transaction (v, a) at index `step` of a command: `tx(v, a)` of R62 with its poll. -/
def TxRecord.events (b : LineBind) (op : Op) (step : Nat) (v a : Byte) (t : TxRecord) : List Event :=
  pollEvents op step t.waits t.ended ++ bitsEvents b v a t.bits ++ [.txDone v a t.result]

/-! ### One command -/

/-- The events of a command's first transactions, one for each record. -/
def seqEvents (b : LineBind) (op : Op) (es : List RomEntry) (ts : List TxRecord) : List Event :=
  (es.zip ts).zipIdx.flatMap fun p => TxRecord.events b op p.2 p.1.1.value p.1.1.addr p.1.2

/-- The transaction view of a command's first transactions (R44). -/
def seqView (es : List RomEntry) (ts : List TxRecord) : List (Byte × Byte × Byte) :=
  (es.zip ts).map fun p => (p.1.value, p.1.addr, p.2.result)

/-- The result registers and the signature accumulator after a command's first transactions (R76). -/
def seqResults (es : List RomEntry) (ts : List TxRecord) (r : Results × Half) : Results × Half :=
  (es.zip ts).foldl (fun r p => p.1.sink.put p.2.result r) r

/-- `(res, sigacc)` when a command is accepted (R53). -/
def acceptResults (op : Op) (s : State) : Results × Half := (s.res, if op = Op.readSig then 0 else s.sigacc)

/-- A whole command as the spec's transaction level gives it: from `s` to `t` the block emits `CmdAccept`, the transactions of
`seq(op)` in order with the samples the records `ts` give, and `CmdDone`, and its result registers take what the sinks say. -/
structure CommandRun (op : Op) (argV : Byte) (argA : Half) (s t : State) (ts : List TxRecord) : Prop where
  records : ts.length = (seqOf s.cfg op argV argA).length
  samples : ∀ x ∈ ts, x.bits.length = 11
  events : t.events = s.events ++ [.cmdAccept op argV argA] ++ seqEvents s.cfg.lineBind op (seqOf s.cfg op argV argA) ts
    ++ [.cmdDone op]
  results : t.res = finishResults op (seqResults (seqOf s.cfg op argV argA) ts (acceptResults op s))
  sigacc : t.sigacc = (seqResults (seqOf s.cfg op argV argA) ts (acceptResults op s)).2
  /-- The sequencer's registers: the latched command, the last index, the last result (R23, R53, R75, R76). -/
  latched : t.op = op ∧ t.argV = argV ∧ t.argA = argA ∧ t.step.toNat + 1 = ts.length
  rx : ts.getLast?.map TxRecord.result = some t.rx

/-- What a command does outside the block and the target: the parameters, the refusal mark, the Session Controller, the levels of
the power controls, what the host has read and the run's faults stay; the stage of the power-up stays but for one still going on, which is wrong
from the command's acceptance on (R124; `Rails.atCommand`). -/
structure SameOutside (s t : State) : Prop where
  cfg : t.cfg = s.cfg
  mark : t.mark = s.mark
  sess : t.sess = s.sess
  rails : t.rails = s.rails.atCommand
  reads : t.reads = s.reads
  faults : t.faults = s.faults

/-- The block between commands: idle, every output line at 0 (R20, R25, R64). -/
structure State.AtRest (s : State) : Prop where
  busy : s.busy = false
  bs : s.bs = .idle
  sii : s.sii = false
  sdi : s.sdi = false
  sci : s.sci = false

/-! ### Views of an event list -/

/-- A clock pulse (R64). -/
def Event.isClkHigh : Event → Bool
  | .clkHigh _ => true
  | _ => false

/-- A poll that ended by its bound (R107 code 1). -/
def Event.isPollTimeout : Event → Bool
  | .pollTimeout _ _ => true
  | _ => false

/-- The commands accepted, in order: what `CmdAccept` records (R43). -/
def cmdView (es : List Event) : List (Op × Byte × Half) :=
  es.filterMap fun
    | .cmdAccept op argV argA => some (op, argV, argA)
    | _ => none

/-! ### The invariant of the registers -/

/-- The levels the data lines carry at the present bit position (R64, R71). -/
def State.lineNow (s : State) : Bool × Bool :=
  lineLevels s.cfg.lineBind (frameBit s.fv s.pos) (frameBit s.fa s.pos)

/-- What the registers satisfy in every cycle: `busy` says whether the bit channel runs (R25, R66); while it runs the frames
have a start bit 0 and two sentinel zeros (R68), `step` stays within the sequence and `pos` within the frame (R19, R24), and a
poll stands at the first bit position with nothing accumulated (R67); SCI is high only
between clock high and clock low (R64); the data lines hold 0 outside a transaction's bits and the present frame bits between
a drive and the clock low that ends the position (R20, R64). -/
structure State.Inv (s : State) : Prop where
  busy_iff : s.busy = true ↔ s.bs ≠ .idle
  fv_frame : s.busy = true → s.fv = frame (frameByte s.fv)
  fa_frame : s.busy = true → s.fa = frame (frameByte s.fa)
  pos_le : s.busy = true → s.pos.toNat ≤ 10
  poll_start : s.bs = .poll → s.pos = 10 ∧ s.acc = 0
  step_lt : s.busy = true → s.step.toNat < seqLen s.op
  sci_low : s.sci = true → s.bs = .clkl
  lines_rest : (s.bs = .idle ∨ s.bs = .poll) → s.sii = false ∧ s.sdi = false
  lines_bit : (s.bs = .sample ∨ s.bs = .clkh ∨ s.bs = .clkl) → (s.sii, s.sdi) = s.lineNow

end Sys2Proof.Machine
end

