-- ==== Sys2Proof/Certificates/Slice0/Obligations.lean ====
section
/-! DEFINITION. The statements for the provers. Each docstring names the rules of the spec it rests on. -/

open Sys2Proof Sys2Proof.Machine

/-! ### Encoding -/

/-- R51, R52, R61: decoding an encoded instruction gives it back, a WRFUSE to a named bank under its pseudo-instruction's
name; so a well-formed instruction is given back as it is. That the decoder answers the words of the three named banks under the
names of R61, which are two spellings of one word, is the model's choice (log 11). -/
def Obligations.DecodeOfEncodeIsTheInstruction : Prop :=
  (∀ i : Instr, decode (encode i) = .ok i.canon) ∧
  ∀ i : Instr, i.wellFormed = true → decode (encode i) = .ok i

/-- R51, R52, R54: a word that decodes is the encoding of what it decodes to. That this is the decoder's own spelling
(`wellFormed`), so that no word is answered as WRFUSE of a named bank, is the model's choice of one of two spellings (log 11). -/
def Obligations.EncodeOfDecodeIsTheWord : Prop :=
  ∀ (w : CmdWord) (i : Instr), decode w = .ok i → encode i = w ∧ i.wellFormed = true

/-- R54: the reserved words are exactly those with a non-zero SBZ field, OP 6 or 7, or a non-zero field that must be 0; an
idle block accepts none of them: the run is refused with RESERVED_COMMAND, and in the cycle the block stays idle, emits no
transaction and only marks the run. -/
def Obligations.ReservedWordsAreNotAccepted : Prop :=
  (∀ w : CmdWord, (∃ e, decode w = .error e) ↔
    (fieldSbz w ≠ 0 ∨ fieldOp w = 6 ∨ fieldOp w = 7 ∨
      (fieldOp w = 0 ∧ w.extractLsb' 16 8 ≠ 0) ∨
      ((fieldOp w = 1 ∨ fieldOp w = 2 ∨ fieldOp w = 4 ∨ fieldOp w = 5) ∧ w.extractLsb' 0 24 ≠ 0))) ∧
  ∀ (s : State) (w : CmdWord) (h : List HostAct) (e : DecodeError),
    s.mark = none → s.busy = false → s.host = .present w :: h → decode w = .error e →
      step s = .refused (.reservedCommand w) ∧
      s.cycle.busy = false ∧ s.cycle.bs = s.bs ∧ s.cycle.events = s.events ++ [.reservedCommand w] ∧
      s.cycle.mark = some (.reservedCommand w) ∧ s.cycle.res = s.res

/-- R51, R52, R61, opcode table: words written out from the encoding decode to the instructions they stand for. That the words
of the three named banks are answered under the names of R61 is the model's choice of one of two spellings (log 11); `V6` spells
0x03646C62 as WRFUSE 0x646C, 0x62. -/
def Obligations.WrittenOutWordsDecode : Prop :=
  decode 0x00004C40 = .ok (.transact 0x40 0x4C) ∧ decode 0x01000000 = .ok .rdsig ∧ decode 0x02000000 = .ok .rdfuses ∧
  decode 0x03123455 = .ok (.wrfuse 0x1234 0x55) ∧ decode 0x03646C62 = .ok (.wrlfuse 0x62) ∧
  decode 0x03747CDF = .ok (.wrhfuse 0xDF) ∧ decode 0x03666EFF = .ok (.wrefuse 0xFF) ∧ decode 0x04000000 = .ok .rdlock ∧
  decode 0x05000000 = .ok .erase

/-- R58: TRANSACT's operands pass unchanged; WRFUSE splits its FuseAddress big-endian into steps 2 and 3 and puts its value
into step 1; READ_SIG's index is the constant 1 or 2 in the value operand of steps 1 and 5; each operand is placed into a
frame as R49 says. -/
def Obligations.OperandsAreAssembledAsTheRomSays : Prop :=
  (∀ (c : Config) (v : Byte) (a : Half),
    ((seqOf c .transact v a).map fun e => (e.value, e.addr)) = [(v, lowByte a)] ∧
    ((seqOf c .writeFuse v a)[1]?.map fun e => e.value) = some v ∧
    ((seqOf c .writeFuse v a)[2]?.map fun e => e.addr) = some (highByte a) ∧
    ((seqOf c .writeFuse v a)[3]?.map fun e => e.addr) = some (lowByte a) ∧
    highByte a ++ lowByte a = a ∧
    ((seqOf c .readSig v a)[1]?.map fun e => e.value) = some 1 ∧
    ((seqOf c .readSig v a)[5]?.map fun e => e.value) = some 2) ∧
  ∀ (s : State) (e : RomEntry), s.seq[s.step.toNat]? = some e →
    s.startEntry.fv = frame e.value ∧ s.startEntry.fa = frame e.addr ∧
    ∀ k < 11, (frame e.value).getLsbD k = (decide (2 ≤ k) && e.value.getLsbD (k - 2)) ∧
      (frame e.addr).getLsbD k = (decide (2 ≤ k) && e.addr.getLsbD (k - 2))

/-! ### A step -/

/-- R17, R53, R112: a step on an idle block runs the instruction its presented command word decodes to: `present` puts the word
on the port in the next cycle, `issue` is a host that waits for an idle block and an idle Session Controller, and the word laid
on the port of the machine after reset is run by the next step. That one step runs the whole command is the model's choice
(log 4), and so are `present`, `issue` and `withFetchWord` as the ways in which a word comes to run (log 12) and the decoder's
spelling, `canon`, of an instruction (log 11). -/
def Obligations.StepRunsTheDecodedInstruction : Prop :=
  (∀ (s : State) (w : CmdWord) (h : List HostAct) (i : Instr),
    s.mark = none → s.busy = false → s.host = .present w :: h → decode w = .ok i →
      step s = exec i { s with host := h }) ∧
  (∀ (s : State) (w : CmdWord) (h : List HostAct) (i : Instr),
    s.mark = none → s.busy = false → s.sess.phase = .idle → s.host = .issue w :: h → decode w = .ok i →
      step s = exec i { s with host := h }) ∧
  ∀ i : Instr, step (State.reset.withFetchWord 32 (encode i).toNat) = exec i.canon State.reset

/-- R111, R112: a busy block takes no command: its meaning and a presented word are refused, whatever the word. That an
instruction's refusal keeps the reason CMD_WHILE_BUSY also in a run that is already marked, whatever the mark, is the model's
choice (log 8). -/
def Obligations.BusyBlockRefusesCommands : Prop :=
  ∀ s : State, s.busy = true →
    (∀ i : Instr, exec i s = .refused (.cmdWhileBusy (encode i) s.op s.step)) ∧
    ∀ (w : CmdWord) (h : List HostAct), s.mark = none → s.host = .present w :: h →
      step s = .refused (.cmdWhileBusy w s.op s.step)

/-- R114: a command presented to a busy block raises `E_CMD_WHILE_BUSY` and marks the run, and the micro-step of that cycle is
the one the block would have made without it: the two next states differ in the trace and the mark only. That a marked run
keeps its first reason, and that the event stands in the trace before those of the micro-step, are the model's choices
(log 8). -/
def Obligations.CommandWhileBusyDoesNotDisturbTheMicroStep : Prop :=
  ∀ (s : State) (w : CmdWord) (h : List HostAct), s.busy = true →
    let disturbed := State.cycle { s with host := .present w :: h }
    let plain := State.cycle { s with host := .quiet :: h }
    disturbed.mark = s.mark.or (some (.cmdWhileBusy w s.op s.step)) ∧
    disturbed = { plain with trace := disturbed.trace, mark := disturbed.mark } ∧
    ∃ new, plain.events = s.events ++ new ∧ disturbed.events = s.events ++ [.cmdWhileBusy w s.op s.step] ++ new

/-- R111: the refusal mark is kept for the rest of the run; every step of a marked run is refused, and no instruction answers a
next state in a run that is marked before it or by it. That a mark keeps its first reason is the model's choice (log 8). -/
def Obligations.MarkedRunStaysRefused : Prop :=
  (∀ (s : State) (r : Refusal), s.mark = some r →
    step s = .refused r ∧ s.cycle.mark = some r ∧ ∀ i : Instr, s.busy = false → exec i s = .refused r) ∧
  ∀ (i : Instr) (s t : State), exec i s = .next t → s.mark = none ∧ t.mark = none

/-! ### The commands -/

/-- R53, R76, R77: every instruction, from a state ready for it, completes as the transaction level says: `CmdAccept`, the
transactions of its sequence in order, each with its poll and its 11 bit positions, `CmdDone`; the result registers, the
signature accumulator and the sequencer's registers as the sinks say; the block at rest with every output line 0; and its
frame: the parameters, the refusal mark, the session, the levels of the power controls, what the host has read, the run's
faults and the host's waiting actions as before, and a power-up that was still going on is wrong (R124; `Rails.atCommand`). -/
def Obligations.EveryCommandPlaysItsSequence : Prop :=
  ∀ (i : Instr) (s : State), s.Ready → ∃ t ts, exec i s = .next t ∧ CommandRun i.op i.v8 i.a16 s t ts ∧ t.AtRest ∧
    SameOutside s t ∧ (portActFirst s.host = false → t.host = s.host)

/-- R79 (with R63): TRANSACT v, a sends one transaction and puts the byte made of samples 1 to 8 into RES_TX; no other result
register changes. -/
def Obligations.TransactPutsTheSampledByteInResTx : Prop :=
  ∀ (s : State) (v a : Byte), s.Ready → ∃ t x, exec (.transact v a) s = .next t ∧ t.AtRest ∧ SameOutside s t ∧
    x.bits.length = 11 ∧
    t.events = s.events ++ [.cmdAccept .transact v (0#8 ++ a)] ++ TxRecord.events s.cfg.lineBind .transact 0 v a x ++
      [.cmdDone .transact] ∧
    t.res = { s.res with tx := resultOf x.bits, txValid := true } ∧ t.sigacc = s.sigacc

/-- R80, R81: RDSIG sends the two four-transaction sub-sequences of K_SIG, index 1 then index 2, and RES_SIG is the byte of
index 1 followed by the byte of index 2, whatever `sigacc` held; no other result register changes. -/
def Obligations.ReadSignatureIsBigEndian : Prop :=
  ∀ s : State, s.Ready → ∃ t r0 r1 b1 r3 r4 r5 r6 b2, exec .rdsig s = .next t ∧ t.AtRest ∧ SameOutside s t ∧
    txView t.events = txView s.events ++
      [(s.cfg.kSig.select.value, s.cfg.kSig.select.addr, r0), (0x01, s.cfg.kSig.indexAddr, r1),
       (s.cfg.kSig.addrHigh.value, s.cfg.kSig.addrHigh.addr, r3), (s.cfg.kSig.dataLow.value, s.cfg.kSig.dataLow.addr, b1),
       (s.cfg.kSig.select.value, s.cfg.kSig.select.addr, r4), (0x02, s.cfg.kSig.indexAddr, r5),
       (s.cfg.kSig.addrHigh.value, s.cfg.kSig.addrHigh.addr, r6), (s.cfg.kSig.dataLow.value, s.cfg.kSig.dataLow.addr, b2)] ∧
    t.res = { s.res with sig := b1 ++ b2, sigValid := true }

/-- R84: RDFUSES reads the low, high and extended banks in that order, each by mode-select, strobe and data read, and stores
the third byte of each; no other result register changes. -/
def Obligations.ReadFusesStoresThreeBanks : Prop :=
  ∀ s : State, s.Ready → ∃ t r0 r1 lo r3 r4 hi r6 r7 ex, exec .rdfuses s = .next t ∧ t.AtRest ∧ SameOutside s t ∧
    txView t.events = txView s.events ++
      [(s.cfg.kRf.mode.value, s.cfg.kRf.mode.addr, r0), (0, s.cfg.kRf.low.strobe, r1), (0, s.cfg.kRf.low.read, lo),
       (s.cfg.kRf.mode.value, s.cfg.kRf.mode.addr, r3), (0, s.cfg.kRf.high.strobe, r4), (0, s.cfg.kRf.high.read, hi),
       (s.cfg.kRf.mode.value, s.cfg.kRf.mode.addr, r6), (0, s.cfg.kRf.ext.strobe, r7), (0, s.cfg.kRf.ext.read, ex)] ∧
    t.res = { s.res with
      lfuse := lo, lfuseValid := true, hfuse := hi, hfuseValid := true, efuse := ex, efuseValid := true } ∧
    t.sigacc = s.sigacc

/-- R85: WRFUSE sends (0x40,0x4C), (value,0x2C), (0,addr-high), (0,addr-low) for any 16-bit address, and writes no result
register. -/
def Obligations.WriteFuseSendsFourTransactions : Prop :=
  ∀ (s : State) (addr : Half) (value : Byte), s.Ready → ∃ t r0 r1 r2 r3, exec (.wrfuse addr value) s = .next t ∧ t.AtRest ∧
    SameOutside s t ∧
    txView t.events = txView s.events ++
      [(0x40, 0x4C, r0), (value, 0x2C, r1), (0, highByte addr, r2), (0, lowByte addr, r3)] ∧
    t.res = s.res ∧ t.sigacc = s.sigacc

/-- R61 (with R85): each pseudo-instruction is WRFUSE with its bank's constant: the same word, the same meaning; and it
completes with that bank's two address bytes. -/
def Obligations.NamedFuseWritesAreFuseWrites : Prop :=
  (∀ (value : Byte) (s : State),
    encode (.wrlfuse value) = encode (.wrfuse 0x646C value) ∧ exec (.wrlfuse value) s = exec (.wrfuse 0x646C value) s ∧
    encode (.wrhfuse value) = encode (.wrfuse 0x747C value) ∧ exec (.wrhfuse value) s = exec (.wrfuse 0x747C value) s ∧
    encode (.wrefuse value) = encode (.wrfuse 0x666E value) ∧ exec (.wrefuse value) s = exec (.wrfuse 0x666E value) s) ∧
  ∀ (s : State) (value : Byte), s.Ready →
    (∃ t r0 r1 r2 r3, exec (.wrlfuse value) s = .next t ∧ t.AtRest ∧ SameOutside s t ∧ t.res = s.res ∧
      t.sigacc = s.sigacc ∧
      txView t.events = txView s.events ++ [(0x40, 0x4C, r0), (value, 0x2C, r1), (0, 0x64, r2), (0, 0x6C, r3)]) ∧
    (∃ t r0 r1 r2 r3, exec (.wrhfuse value) s = .next t ∧ t.AtRest ∧ SameOutside s t ∧ t.res = s.res ∧
      t.sigacc = s.sigacc ∧
      txView t.events = txView s.events ++ [(0x40, 0x4C, r0), (value, 0x2C, r1), (0, 0x74, r2), (0, 0x7C, r3)]) ∧
    ∃ t r0 r1 r2 r3, exec (.wrefuse value) s = .next t ∧ t.AtRest ∧ SameOutside s t ∧ t.res = s.res ∧
      t.sigacc = s.sigacc ∧
      txView t.events = txView s.events ++ [(0x40, 0x4C, r0), (value, 0x2C, r1), (0, 0x66, r2), (0, 0x6E, r3)]

/-- R88: RDLOCK sends (0x04,0x4C), (0,0x78), (0,0x7C), and RES_LOCK is the third byte, all 8 bits; no other result register
changes. -/
def Obligations.ReadLockStoresTheThirdByte : Prop :=
  ∀ s : State, s.Ready → ∃ t r0 r1 lock, exec .rdlock s = .next t ∧ t.AtRest ∧ SameOutside s t ∧
    txView t.events = txView s.events ++ [(0x04, 0x4C, r0), (0, 0x78, r1), (0, 0x7C, lock)] ∧
    t.res = { s.res with lock := lock, lockValid := true } ∧ t.sigacc = s.sigacc

/-- R91, R92: ERASE sends (0x80,0x4C), (0,0x64), (0,0x6C), whatever the result registers hold, and writes none of them. -/
def Obligations.EraseSendsThreeTransactions : Prop :=
  ∀ s : State, s.Ready → ∃ t r0 r1 r2, exec .erase s = .next t ∧ t.AtRest ∧ SameOutside s t ∧
    txView t.events = txView s.events ++ [(0x80, 0x4C, r0), (0, 0x64, r1), (0, 0x6C, r2)] ∧
    t.res = s.res ∧ t.sigacc = s.sigacc

/-- R36: every command moves its fixed number of transactions, TRANSACT 1, READ_SIG 8, READ_FUSES 9, WRITE_FUSE 4, READ_LOCK 3,
ERASE 3, each with one 8-bit value, one 8-bit address and one 8-bit result; with 11 clock pulses each (R64). -/
def Obligations.TransactionCountsAreFixed : Prop :=
  (seqLen .transact = 1 ∧ seqLen .readSig = 8 ∧ seqLen .readFuses = 9 ∧ seqLen .writeFuse = 4 ∧ seqLen .readLock = 3 ∧
    seqLen .erase = 3) ∧
  ∀ (i : Instr) (s : State), s.Ready → ∃ t new, exec i s = .next t ∧ t.events = s.events ++ new ∧
    (txView new).length = seqLen i.op ∧ new.countP Event.isClkHigh = 11 * seqLen i.op

/-- R77 (with log 4: that exec runs a whole command is the model's choice): running a command is running the micro-step machine from the cycle in which its word is presented, for every state of
an idle block and everything the host does meanwhile. -/
def Obligations.ExecIsTheCycleMachine : Prop :=
  ∀ (i : Instr) (s t : State), s.busy = false → exec i s = .next t →
    ∃ n, t = State.cycles n { s with host := .present (encode i) :: s.host }

/-- R27: each result register is written only by the command named beside it, in every run, whatever the host and the target
do meanwhile. -/
def Obligations.ResultRegistersHaveOneWriter : Prop :=
  ∀ (i : Instr) (s t : State), exec i s = .next t →
    (i.op ≠ .transact → t.res.tx = s.res.tx ∧ t.res.txValid = s.res.txValid) ∧
    (i.op ≠ .readSig → t.res.sig = s.res.sig ∧ t.res.sigValid = s.res.sigValid) ∧
    (i.op ≠ .readFuses → t.res.lfuse = s.res.lfuse ∧ t.res.lfuseValid = s.res.lfuseValid ∧
      t.res.hfuse = s.res.hfuse ∧ t.res.hfuseValid = s.res.hfuseValid ∧
      t.res.efuse = s.res.efuse ∧ t.res.efuseValid = s.res.efuseValid) ∧
    (i.op ≠ .readLock → t.res.lock = s.res.lock ∧ t.res.lockValid = s.res.lockValid)

/-- R50: the line binding changes nothing but the two data lines: with it swapped a command returns the same bytes, in the same
transactions, and leaves the same results. That it leaves the same target is the model's choice (log 9: the reference target
looks at a transaction's operands, not at the lines; D1 lets a target's reaction depend on the binding). -/
def Obligations.LineBindingDoesNotChangeResults : Prop :=
  ∀ (i : Instr) (s t : State) (b : LineBind), exec i s = .next t →
    ∃ t', exec i { s with cfg := { s.cfg with lineBind := b } } = .next t' ∧ t'.res = t.res ∧ t'.sigacc = t.sigacc ∧
      t'.rx = t.rx ∧ t'.busy = t.busy ∧ t'.target = t.target ∧ t'.time = t.time ∧
      txView t'.events = txView t.events

/-! ### The bit channel -/

/-- R63: bit k of a transaction's result is sample `8 - k`; samples 0, 9 and 10 never reach it. -/
def Obligations.ResultBitsAreSamplesOneToEight : Prop :=
  ∀ bits : List Bool, bits.length = 11 → ∀ k < 8, bits[8 - k]? = some ((resultOf bits).getLsbD k)

/-- R69, R70: a poll micro-step reads SDO once; a high level ends the poll, else the bound does, with `E_POLL_TIMEOUT` and no
other effect; else the poll goes on; `poll_t` counts the tick of the cycle after the test, and no bit of the accumulator, the
frames, the lines or the results changes. -/
def Obligations.PollWaitsForHighOrTheBound : Prop :=
  ∀ s : State, s.busy = true → s.bs = .poll → hostQuiet s.host = true →
    s.cycle.pollT = s.pollT + (if s.time.tick then 1 else 0) ∧
    (s.sdo = true → s.cycle.bs = .drive ∧ s.cycle.events = s.events ++ [.pollSample true, .pollExit .ready]) ∧
    (s.sdo = false → s.cfg.tPoll ≤ s.pollT → s.cycle.bs = .drive ∧
      s.cycle.events = s.events ++ [.pollSample false, .pollExit .timeout, .pollTimeout s.op s.step]) ∧
    (s.sdo = false → s.pollT < s.cfg.tPoll → s.cycle.bs = .poll ∧ s.cycle.events = s.events ++ [.pollSample false]) ∧
    s.cycle.acc = s.acc ∧ s.cycle.fv = s.fv ∧ s.cycle.fa = s.fa ∧ s.cycle.sii = s.sii ∧ s.cycle.sdi = s.sdi ∧
    s.cycle.sci = s.sci ∧ s.cycle.res = s.res ∧ s.cycle.busy = true ∧ s.cycle.step = s.step

/-- R71: the drive micro-step puts the two frames' bits of the present position on the two data lines together, the value's
where LINE_BIND says; SCI and everything sampled so far stay. -/
def Obligations.DrivePutsTheFrameBitsOnTheLines : Prop :=
  ∀ s : State, s.busy = true → s.bs = .drive → hostQuiet s.host = true →
    (s.cfg.lineBind = .valueOnSdi → s.cycle.sdi = s.fv.getLsbD s.pos.toNat ∧ s.cycle.sii = s.fa.getLsbD s.pos.toNat) ∧
    (s.cfg.lineBind = .valueOnSii → s.cycle.sii = s.fv.getLsbD s.pos.toNat ∧ s.cycle.sdi = s.fa.getLsbD s.pos.toNat) ∧
    s.cycle.events = s.events ++ [.drive s.pos s.cycle.sii s.cycle.sdi] ∧ s.cycle.bs = .sample ∧ s.cycle.sci = s.sci ∧
    s.cycle.acc = s.acc ∧ s.cycle.pos = s.pos ∧ s.cycle.res = s.res

/-- R72: the sample micro-step shifts the level of SDO into the accumulator, emits `Sample(pos, b)` and goes to clock high; SCI
is 0 when the sample is taken. -/
def Obligations.SampleShiftsOneLevelInWhileSciIsLow : Prop :=
  ∀ s : State, s.Inv → s.busy = true → s.bs = .sample → hostQuiet s.host = true →
    s.sci = false ∧
    s.cycle.acc = ((s.acc <<< 1) ||| (if s.sdo then 1 else 0)) ∧
    s.cycle.events = s.events ++ [.sample s.pos s.sdo] ∧ s.cycle.bs = .clkh ∧
    s.cycle.sii = s.sii ∧ s.cycle.sdi = s.sdi ∧ s.cycle.sci = s.sci ∧ s.cycle.pos = s.pos ∧ s.cycle.res = s.res

/-- R73: the clock-high micro-step raises SCI, emits `ClkHigh(pos)` and goes to clock low; the data lines and the accumulator
stay. -/
def Obligations.ClockHighRaisesSci : Prop :=
  ∀ s : State, s.busy = true → s.bs = .clkh → hostQuiet s.host = true →
    s.cycle.sci = true ∧ s.cycle.events = s.events ++ [.clkHigh s.pos] ∧ s.cycle.bs = .clkl ∧
    s.cycle.sii = s.sii ∧ s.cycle.sdi = s.sdi ∧ s.cycle.acc = s.acc ∧ s.cycle.pos = s.pos ∧ s.cycle.res = s.res

/-- R74, R75 (and the events of R76): the clock-low micro-step lowers SCI and emits `ClkLow(pos)`; before the last position it
goes on with the next lower one; at the last, `rx` is bits 9:2 of the accumulator, `TxDone` records the frames' operands and
`rx`, and the bit channel is idle, with `CmdDone`, unless the sequencer starts the command's next transaction, which emits
nothing yet. -/
def Obligations.ClockLowEndsAPositionOrTheTransaction : Prop :=
  ∀ s : State, s.Inv → s.busy = true → s.bs = .clkl → hostQuiet s.host = true →
    s.cycle.sci = false ∧
    (s.pos ≠ 0 → s.cycle.events = s.events ++ [.clkLow s.pos] ∧ s.cycle.pos = s.pos - 1 ∧ s.cycle.bs = .drive ∧
      s.cycle.acc = s.acc ∧ s.cycle.res = s.res ∧ s.cycle.busy = true) ∧
    (s.pos = 0 → s.cycle.rx = s.acc.extractLsb' 2 8 ∧
      s.cycle.events = s.events ++ [.clkLow s.pos, .txDone (s.fv.extractLsb' 2 8) (s.fa.extractLsb' 2 8)
        (s.acc.extractLsb' 2 8)] ++ (if s.step.toNat + 1 = seqLen s.op then [.cmdDone s.op] else []) ∧
      (s.step.toNat + 1 = seqLen s.op → s.cycle.bs = .idle ∧ s.cycle.busy = false) ∧
      (s.step.toNat + 1 < seqLen s.op → s.cycle.bs = .poll ∧ s.cycle.busy = true ∧ s.cycle.step = s.step + 1))

/-- R76: the cycle that ends a transaction writes its result where the sink of its ROM entry says: a result register with its
valid bit, the signature accumulator, or nothing; the last transaction of READ_SIG also writes RES_SIG from the accumulator. -/
def Obligations.TransactionEndWritesItsSink : Prop :=
  ∀ (s : State) (e : RomEntry), s.Inv → s.busy = true → s.bs = .clkl → s.pos = 0 → hostQuiet s.host = true →
    s.seq[s.step.toNat]? = some e →
      let r := s.acc.extractLsb' 2 8
      let folded := (s.sigacc <<< 8) + r.zeroExtend 16
      (e.sink = .discard → s.cycle.res = s.res ∧ s.cycle.sigacc = s.sigacc) ∧
      (e.sink = .tx → s.cycle.res = { s.res with tx := r, txValid := true } ∧ s.cycle.sigacc = s.sigacc) ∧
      (e.sink = .lf → s.cycle.res = { s.res with lfuse := r, lfuseValid := true } ∧ s.cycle.sigacc = s.sigacc) ∧
      (e.sink = .hf → s.cycle.res = { s.res with hfuse := r, hfuseValid := true } ∧ s.cycle.sigacc = s.sigacc) ∧
      (e.sink = .ef → s.cycle.res = { s.res with efuse := r, efuseValid := true } ∧ s.cycle.sigacc = s.sigacc) ∧
      (e.sink = .lock → s.cycle.res = { s.res with lock := r, lockValid := true } ∧ s.cycle.sigacc = s.sigacc) ∧
      (e.sink = .sig → s.cycle.sigacc = folded ∧
        (s.step.toNat + 1 < seqLen s.op → s.cycle.res = s.res) ∧
        (s.step.toNat + 1 = seqLen s.op → s.cycle.res = { s.res with sig := folded, sigValid := true }))

/-- R78, R70: from its start a transaction spends at most `T_POLL` ticks in its poll, which `poll_t` counts, up to the last poll
sample; then exactly 44 micro-steps follow, and the command is done or its next transaction starts, whatever SDO does. -/
def Obligations.TransactionEndsWithinItsBound : Prop :=
  ∀ s : State, s.Inv → s.busy = true → s.bs = .poll → s.pollT = 0 → hostQuiet s.host = true → s.time.fair = true →
    ∃ n,
      (∀ m ≤ n, (State.cycles m s).bs = .poll ∧
        (State.cycles m s).pollT = (List.range m).countP fun k => (State.cycles k s).time.tick) ∧
      ((List.range n).countP fun k => (State.cycles k s).time.tick) ≤ s.cfg.tPoll ∧
      (∀ m, 1 ≤ m → m ≤ 44 → (State.cycles (n + m) s).bs ∈ [Phase.drive, .sample, .clkh, .clkl]) ∧
      (((State.cycles (n + 45) s).bs = .idle ∧ (State.cycles (n + 45) s).busy = false) ∨
        ((State.cycles (n + 45) s).bs = .poll ∧ (State.cycles (n + 45) s).step = s.step + 1))

/-- R78: with one tick in every cycle, a command is done within one cycle for its acceptance and, for each of its transactions,
`T_POLL + 1` poll samples and 44 micro-steps. -/
def Obligations.CommandEndsWithinItsBound : Prop :=
  ∀ (i : Instr) (s : State) (c : Nat), s.Ready → s.time = ⟨.every 0, 0, c⟩ →
    ∃ n ≤ 1 + seqLen i.op * (s.cfg.tPoll + 45),
      exec i s = .next (State.cycles n { s with host := .present (encode i) :: s.host }) ∧
      (State.cycles n { s with host := .present (encode i) :: s.host }).busy = false

/-- R78: with SDO held at one level every transaction of every command samples that level 11 times and the command still
completes: held low, every poll times out and every byte is 0x00; held high, every poll is ready at its first sample and every
byte is 0xFF. The held line is a target of the model's own (log 10), which reaches the block as any target does (R124, R128). -/
def Obligations.HeldLineStillCompletesEveryCommand : Prop :=
  ∀ (i : Instr) (s : State) (b : Bool), s.Ready → s.target = .held b → s.rails.ready = true →
    ∃ t ts, exec i s = .next t ∧ CommandRun i.op i.v8 i.a16 s t ts ∧ t.busy = false ∧
      ∀ x ∈ ts, x.bits = List.replicate 11 b ∧ x.ended = (if b then .ready else .timeout) ∧ (b = true → x.waits = 0) ∧
        x.result = (if b then 0xFF else 0x00)

/-- R121 last row, I17: while the time source is stopped and SDO is held low, a poll below its bound goes on for ever: no number
of cycles ends it, and `poll_t` does not move. -/
def Obligations.StoppedTimeSourceHangsThePoll : Prop :=
  ∀ (s : State) (n : Nat), s.busy = true → s.bs = .poll → s.target = .held false → s.rails.ready = true →
    s.time.rate = .stopped → s.pollT < s.cfg.tPoll → hostQuiet s.host = true →
      (State.cycles n s).busy = true ∧ (State.cycles n s).bs = .poll ∧ (State.cycles n s).pollT = s.pollT

/-! ### Reset -/

/-- R122: in a cycle with `rst` = 1, whatever `cmd_valid` is, the block is idle with its lines and poll timer at 0 and nothing
is sampled. If a command was in progress it is abandoned: the one event is `E_RESET_ABORT(op, step, pos)`, so no `TxDone` and no
`CmdDone`, and the result registers keep what they hold. -/
def Obligations.ResetAbandonsTheCommandInProgress : Prop :=
  ∀ (s : State) (valid tick : Bool) (w : CmdWord),
    let t := State.clk ⟨true, valid, w⟩ tick s
    t.busy = false ∧ t.bs = .idle ∧ t.step = 0 ∧ t.pollT = 0 ∧ t.sii = false ∧ t.sdi = false ∧ t.sci = false ∧
    t.levels = s.levels ∧
    (s.busy = true → t.events = s.events ++ [.resetAbort s.op s.step s.pos] ∧ t.res = s.res) ∧
    (s.busy = false → t.events = s.events ∧ t.draws = s.draws)

/-- R107 (code 4), R122, I4: an `rst` that abandons a command makes the reference target's state a free draw and puts it out of
step: right after that cycle what the target is does not depend on what it was, but for a loss of step that lasts for good (R48,
D25) and the busy times still to be drawn, and each response bit it would give is a free draw. Which fields are drawn is log 19;
how long it lasts is `LossOfStepOfAnAbortLastsUntilPowerDown`. -/
def Obligations.ResetAbortMakesTheTargetAFreeDraw : Prop :=
  ∀ (s : State) (valid tick : Bool) (w : CmdWord) (r : RefTarget), s.busy = true → s.target = .reference r →
    ∃ r', (State.clk ⟨true, valid, w⟩ tick s).target = .reference r' ∧ r'.lost = true ∧
      r'.sync = r.sync ∧ (∀ r₂ : RefTarget, r₂.busyTimes = r.busyTimes → r₂.sync = r.sync →
        (State.clk ⟨true, valid, w⟩ tick { s with target := .reference r₂ }).target = .reference r') ∧
      ∀ (a : Byte) (pos : Nibble), 2 ≤ pos.toNat → pos.toNat ≤ 9 → r'.bitLevel a pos = none

/-- R31, R123: after reset the block is idle with `step`, the poll timer and the output lines at 0, no result register has a
value, nothing has been recorded, and the Session Controller is in `Idle`. -/
def Obligations.ResetStateIsIdleWithNoResults : Prop :=
  State.reset.busy = false ∧ State.reset.bs = .idle ∧ State.reset.step = 0 ∧ State.reset.pollT = 0 ∧
  State.reset.sii = false ∧ State.reset.sdi = false ∧ State.reset.sci = false ∧
  (∀ p : Port, p ≠ .busy → State.reset.portValue p = none) ∧ State.reset.events = [] ∧ State.reset.sess.phase = .idle

/-! ### Invariants -/

/-- R20, R25, R31 at reset: the invariant of the registers holds. -/
def Obligations.RegisterInvariantHoldsAtReset : Prop := State.reset.Inv

/-- R19, R20, R24, R25, R64, R66, R68: every step and every cycle keeps the invariant of the registers, from every state that
satisfies it. -/
def Obligations.RegisterInvariantIsKept : Prop :=
  (∀ s : State, s.Inv → s.cycle.Inv) ∧ ∀ s t : State, s.Inv → step s = .next t → t.Inv

/-- R43: the event trace is append-only; R9, R29: no step changes a parameter. -/
def Obligations.TraceOnlyGrowsAndParametersStay : Prop :=
  ∀ s t : State, step s = .next t → (∃ new, t.events = s.events ++ new) ∧ t.cfg = s.cfg

/-! ### Results and the host's reads -/

/-- R90: the decoder's outputs by bits 1:0 of RES_LOCK, whatever bits 7:2 are. -/
def Obligations.LockDecoderTruthTable : Prop :=
  ∀ v : Byte,
    (v.extractLsb' 0 2 = 0#2 → lb2Prog v = true ∧ lb1Prog v = true) ∧
    (v.extractLsb' 0 2 = 1#2 → lb2Prog v = true ∧ lb1Prog v = false) ∧
    (v.extractLsb' 0 2 = 2#2 → lb2Prog v = false ∧ lb1Prog v = true) ∧
    (v.extractLsb' 0 2 = 3#2 → lb2Prog v = false ∧ lb1Prog v = false)

/-- R28, R89: a host read of a port that has no value faults the run and reads a free draw of the port's width, not 0; of one
that has a value it notes the value and changes nothing else; the decoder outputs have a value exactly when RES_LOCK has, and it
is the decoded bit. That a faulted run goes on is log 21. -/
def Obligations.ReadingAnUnwrittenResultFaults : Prop :=
  (∀ (s : State) (p : Port) (h : List HostAct),
    s.mark = none → s.busy = false → s.sess.phase = .idle → s.host = .read p :: h →
      (s.portValue p = none → step s = .next { s with
        host := h, reads := (p, ((Config.freePort s.draws).setWidth p.width).setWidth 16) :: s.reads,
        faults := p :: s.faults, draws := s.draws + 1 }) ∧
      ∀ x, s.portValue p = some x → step s = .next { s with host := h, reads := (p, x) :: s.reads }) ∧
  ∀ s : State,
    (s.portValue .lb1Prog = none ↔ s.portValue .resLock = none) ∧
    (s.portValue .lb2Prog = none ↔ s.portValue .resLock = none) ∧
    (s.res.lockValid = true → s.portValue .lb1Prog = some (if s.res.lock.getLsbD 0 then 0 else 1) ∧
      s.portValue .lb2Prog = some (if s.res.lock.getLsbD 1 then 0 else 1))

/-! ### The reference target -/

/-- R46 (with R80, R84, R88): in step with the reference target, and with no poll timed out, the read commands return its
fields: RDSIG its two signature bytes, RDFUSES its three fuse bytes, RDLOCK its lock byte. The parameters K_SIG and K_RF are at
their defaults, which the fixture answers to. -/
def Obligations.ReadsReturnTheReferenceTargetsFields : Prop :=
  ∀ (s : State) (r : RefTarget), s.Ready → s.target = .reference r → r.inStep = true → s.rails.ready = true →
    s.cfg.kSig = .standard → s.cfg.kRf = .standard →
      (∃ t new, exec .rdsig s = .next t ∧ t.events = s.events ++ new ∧
        (new.any Event.isPollTimeout = false → t.res.sig = r.sig1 ++ r.sig2)) ∧
      (∃ t new, exec .rdfuses s = .next t ∧ t.events = s.events ++ new ∧
        (new.any Event.isPollTimeout = false → t.res.lfuse = r.lf ∧ t.res.hfuse = r.hf ∧ t.res.efuse = r.ef)) ∧
      ∃ t new, exec .rdlock s = .next t ∧ t.events = s.events ++ new ∧
        (new.any Event.isPollTimeout = false → t.res.lock = r.lock)

/-- R86: on the reference target in step, a fuse write followed by RDFUSES, with every poll in between ending READY, reads the
written value in that bank and the other two banks unchanged. -/
def Obligations.FuseWriteThenReadRoundTrip : Prop :=
  ∀ (s : State) (r : RefTarget) (x : Byte), s.Ready → s.target = .reference r → r.inStep = true → s.rails.ready = true →
    s.cfg.kRf = .standard →
      (∃ t u new, exec (.wrlfuse x) s = .next t ∧ exec .rdfuses t = .next u ∧ u.events = s.events ++ new ∧
        (new.any Event.isPollTimeout = false → u.res.lfuse = x ∧ u.res.hfuse = r.hf ∧ u.res.efuse = r.ef)) ∧
      (∃ t u new, exec (.wrhfuse x) s = .next t ∧ exec .rdfuses t = .next u ∧ u.events = s.events ++ new ∧
        (new.any Event.isPollTimeout = false → u.res.lfuse = r.lf ∧ u.res.hfuse = x ∧ u.res.efuse = r.ef)) ∧
      ∃ t u new, exec (.wrefuse x) s = .next t ∧ exec .rdfuses t = .next u ∧ u.events = s.events ++ new ∧
        (new.any Event.isPollTimeout = false → u.res.lfuse = r.lf ∧ u.res.hfuse = r.hf ∧ u.res.efuse = x)

/-- R47, R91: on the reference target in step, ERASE followed by RDLOCK, with every poll ready, reads the lock byte with bits
1:0 set and the other bits as before, so both decoder outputs are 0. -/
def Obligations.EraseThenReadLockIsUnprogrammed : Prop :=
  ∀ (s : State) (r : RefTarget), s.Ready → s.target = .reference r → r.inStep = true → s.rails.ready = true →
    ∃ t u new, exec .erase s = .next t ∧ exec .rdlock t = .next u ∧ u.events = s.events ++ new ∧
      (new.any Event.isPollTimeout = false →
        u.res.lock = r.lock ||| 0x03 ∧ lb1Prog u.res.lock = false ∧ lb2Prog u.res.lock = false)

/-- R46, R48, R124, R128: what the block reads at SDO on the reference target. Without a right power-up and the response line
as an input: a free draw. In a poll: 1 exactly if the target is not busy. At sample j of a transaction: for j = 1 to 8 a free
draw if it is out of step, else, not busy, `R[8 - j]` of its response R, or a free draw where it has none; at samples 0, 9 and
10 a free draw, or 0 of a busy target (log 19). -/
def Obligations.ReferenceTargetAnswersBitByBit : Prop :=
  ∀ (s : State) (r : RefTarget), s.target = .reference r →
    (s.rails.ready = false → s.sdo = s.freeLevel) ∧
    (s.rails.ready = true → s.bs = .poll → s.sdo = decide (r.busyLeft = 0)) ∧
    (s.rails.ready = true → s.bs = .sample → ∀ j ≤ 10, s.pos = BitVec.ofNat 4 (10 - j) →
      (1 ≤ j → j ≤ 8 → r.inStep = false → s.sdo = s.freeLevel) ∧
      (1 ≤ j → j ≤ 8 → r.inStep = true → r.busyLeft = 0 →
        (∀ R : Byte, r.response (frameByte s.fa) = some R → s.sdo = R.getLsbD (8 - j)) ∧
        (r.response (frameByte s.fa) = none → s.sdo = s.freeLevel)) ∧
      ((j = 0 ∨ 9 ≤ j) → s.sdo = if r.busyLeft = 0 then s.freeLevel else false))

/-- R124, R128: after a wrong power-up, or with the response line still an output, every level the block reads is a free draw,
whatever the target is. -/
def Obligations.WithoutPowerUpEveryLevelIsFree : Prop :=
  ∀ s : State, (s.rails.powered = false ∨ s.rails.responseIsInput = false) → s.sdo = s.freeLevel

/-- R124: a command that comes before the power-up has ended makes it wrong: the instruction completes, no target's level
reaches the block from then on, and no power action but VCC off changes that. That it stays wrong until VCC is off is the
model's choice (log 14). -/
def Obligations.CommandBeforePowerUpEndsMakesItWrong : Prop :=
  (∀ (i : Instr) (s : State), s.Ready → s.rails.stage ≠ .off → s.rails.powered = false →
    ∃ t, exec i s = .next t ∧ t.rails.stage = .wrong ∧ t.rails.vcc = s.rails.vcc ∧
      t.rails.resetIsHigh = s.rails.resetIsHigh ∧ t.rails.responseIsInput = s.rails.responseIsInput) ∧
  ∀ (s : State) (acts : List PowerAct), s.rails.stage = .wrong → .vccOff ∉ acts →
    let t := acts.foldl (fun u a => u.powerAct a) s
    t.rails.stage = .wrong ∧ t.sdo = t.freeLevel

/-- R48: a transaction whose first bit position begins while the target is busy puts the target out of step in that cycle, which
leaves its storage (signature bytes, fuses, lock byte, erased) as it was; the storage becomes free draws when transactions end
(log 19). -/
def Obligations.TransactionOnABusyTargetLosesStep : Prop :=
  ∀ (s : State) (r : RefTarget), s.busy = true → s.bs = .drive → s.pos = 10 → hostQuiet s.host = true →
    s.target = .reference r → r.busyLeft ≠ 0 →
      ∃ r', s.cycle.target = .reference r' ∧ r'.sync = false ∧ r'.sig1 = r.sig1 ∧ r'.sig2 = r.sig2 ∧ r'.lf = r.lf ∧
        r'.hf = r.hf ∧ r'.ef = r.ef ∧ r'.lock = r.lock ∧ r'.erased = r.erased

/-- R48, D25 ("desynchronises for good"), I3: a target that is out of step because a transaction began while it was busy stays
so over every cycle, every instruction and every step, a power-down and an rst among them. -/
def Obligations.LossOfStepOfABusyTargetIsForGood : Prop :=
  ∀ (s : State) (r : RefTarget), s.target = .reference r → r.sync = false →
    (∃ r', s.cycle.target = .reference r' ∧ r'.sync = false) ∧
    (∀ (i : Instr) (t : State), exec i s = .next t → ∃ r', t.target = .reference r' ∧ r'.sync = false) ∧
    ∀ t : State, step s = .next t → ∃ r', t.target = .reference r' ∧ r'.sync = false

/-- I4 ("any value for every later response ... until the host powers the target down"): on a target that an abort put out of step
every response bit the block reads is a free draw, and every cycle, every instruction, and every step from power to power, one
that neither switches VCC off nor finds it off, leaves it out of step. A wrong power-up sets the same flag (R124); that it ends
in the same way is the model's choice (logs 7, 19). -/
def Obligations.LossOfStepOfAnAbortLastsUntilPowerDown : Prop :=
  ∀ (s : State) (r : RefTarget), s.target = .reference r → r.lost = true →
    (s.bs = .sample → 2 ≤ s.pos.toNat → s.pos.toNat ≤ 9 → s.sdo = s.freeLevel) ∧
    (∃ r', s.cycle.target = .reference r' ∧ r'.lost = true) ∧
    (∀ (i : Instr) (t : State), exec i s = .next t → ∃ r', t.target = .reference r' ∧ r'.lost = true) ∧
    ∀ t : State, s.rails.stage ≠ .off → step s = .next t → t.rails.stage ≠ .off →
      ∃ r', t.target = .reference r' ∧ r'.lost = true

/-- I4: the loss of step that an rst brings ends when the host powers the target down; one of R48 does not (D25: "for good"). That
the target is then not busy and without a preceding transaction, and that the storage of a target that was not busy is as it
was, is the model's choice (log 7, unsafe there); so is that all this holds whether or not 12 V went off before VCC, as R124 asks
(logs 7, 14). -/
def Obligations.PowerDownEndsTheLossOfStep : Prop :=
  ∀ (s : State) (r : RefTarget) (h : List HostAct), s.mark = none → s.busy = false → s.sess.phase = .idle →
    s.host = .power .vccOff :: h → s.target = .reference r →
      ∃ t r', step s = .next t ∧ t.target = .reference r' ∧ r'.lost = false ∧ r'.sync = r.sync ∧
        r'.prev = none ∧ r'.busyLeft = 0 ∧
        t.rails.vcc = false ∧ t.rails.powered = false ∧
        (r.busyLeft = 0 → r'.sig1 = r.sig1 ∧ r'.sig2 = r.sig2 ∧ r'.lf = r.lf ∧ r'.hf = r.hf ∧ r'.ef = r.ef ∧
          r'.lock = r.lock ∧ r'.erased = r.erased)

/-! ### The Session Controller -/

/-- R97, R124: a session request on an idle block performs the power-up in its order and arrives in `Identifying` with RDSIG to
issue: VCC on, 12 V on, the response line an input, the target powered up. The order is the spec's own choice (D24); how the
model follows it is log 14. That no cycle passes meanwhile is the model's choice (log 13). -/
def Obligations.RequestPowersTheTargetUp : Prop :=
  ∀ (s : State) (m : Mode), s.mark = none → s.busy = false → s.host = [.request m] → s.sess.phase = .idle →
    s.rails.stage = .off →
      ∃ t, Host.Core.run Sys2Proof.core 10 s = .next t ∧ t.rails.ready = true ∧ t.rails.vcc = true ∧
        t.rails.resetIsHigh = false ∧ t.rails.responseIsInput = true ∧ t.sess.phase = .identifying ∧
        t.sess.mode = m ∧ t.sess.todo = [.rdsig] ∧ t.busy = false ∧ t.events = s.events ∧ t.res = s.res

/-- R96, R99, R100: what follows `Identifying`, in the order of precedence: erase whatever the signature; read-only;
write-defaults with the defaults of a known signature, two writes for 0x9007 and three for the six others; else the reads. -/
def Obligations.IdentifyingDispatchesByPrecedence : Prop :=
  ∀ sig : Half,
    leaveIdentifying .erase sig = (.erasing, [.erase]) ∧
    leaveIdentifying .readOnly sig = (.reading, [.rdfuses, .rdlock]) ∧
    (sig = 0x9007 → leaveIdentifying .writeDefaults sig = (.writing, [.wrlfuse 0x6A, .wrhfuse 0xFF])) ∧
    (sig ∈ [0x910B, 0x9108, 0x9207, 0x9206, 0x930C, 0x930B] →
      leaveIdentifying .writeDefaults sig = (.writing, [.wrlfuse 0x62, .wrhfuse 0xDF, .wrefuse 0xFF])) ∧
    (sig ∉ [0x9007, 0x910B, 0x9108, 0x9207, 0x9206, 0x930C, 0x930B] →
      leaveIdentifying .writeDefaults sig = (.reading, [.rdfuses, .rdlock]))

/-- R98, R107 (code 16), R110: leaving `Identifying` the host reads RES_SIG (a free draw, with a fault of the run, where it has no
value: R28, log 21), raises `S_UNKNOWN_SIGNATURE` exactly for a
signature outside the table of R96, and goes where R99 says; the block is not touched. That the mode does not matter to the
event, and that no cycle passes in this step, so that the target is as it was, is log 13. -/
def Obligations.UnknownSignatureIsReportedByTheHost : Prop :=
  ∀ s : State, s.mark = none → s.busy = false → portActFirst s.host = false →
    s.sess.phase = .identifying → s.sess.todo = [] → s.sess.power = [] →
      let sig : Half := if s.res.sigValid then s.res.sig else Config.freePort s.draws
      ∃ t, step s = .next t ∧
        t.events = s.events ++ (if sig ∈ [0x9007, 0x910B, 0x9108, 0x9207, 0x9206, 0x930C, 0x930B] then []
          else [.unknownSignature sig]) ∧
        t.sess.sig = sig ∧ (t.sess.phase, t.sess.todo) = leaveIdentifying s.sess.mode sig ∧ t.sess.mode = s.sess.mode ∧
        t.res = s.res ∧ t.busy = false ∧ t.target = s.target ∧ t.rails = s.rails ∧
        t.faults = if s.res.sigValid then s.faults else .resSig :: s.faults

/-- R94, R100 to R104: with its commands and power actions done, a mutating state is followed by `Verifying` with the reads,
`Verifying` and `Reading` by `PoweringDown` with both rails to switch off, 12 V first, and `PoweringDown` by `Idle`. R104 says
that both rails are de-energised; the order, 12 V first, then VCC, is R124's, which the spec marks as its own choice (D24, G6;
log 14). That no cycle passes in such a step is the model's choice (log 13). -/
def Obligations.SessionStatesFollowTheTransitionList : Prop :=
  ∀ s : State, s.mark = none → s.busy = false → portActFirst s.host = false → s.sess.todo = [] → s.sess.power = [] →
    ((s.sess.phase = .writing ∨ s.sess.phase = .erasing) →
      step s = .next { s with sess := { s.sess with phase := .verifying, todo := [.rdfuses, .rdlock] } }) ∧
    ((s.sess.phase = .verifying ∨ s.sess.phase = .reading) →
      step s = .next { s with sess := { s.sess with phase := .poweringDown, power := [.resetHigh, .vccOff] } }) ∧
    (s.sess.phase = .poweringDown → step s = .next { s with sess := { s.sess with phase := .idle } })

/-- R104, R105: a requested session, in any mode and on any target, issues exactly the commands of R105's table, written out
here, for that mode and the signature it read, in order, and ends in `Idle` with the target powered down. -/
def Obligations.EverySessionPlaysItsCommandsAndPowersDown : Prop :=
  ∀ (s : State) (m : Mode), s.Ready → s.host = [.request m] → s.sess.phase = .idle →
    ∃ n t new, Host.Core.run Sys2Proof.core n s = .next t ∧ t.sess.phase = .idle ∧ t.busy = false ∧
      t.rails.vcc = false ∧ t.rails.resetIsHigh = true ∧ t.res.sigValid = true ∧ t.sess.sig = t.res.sig ∧
      t.events = s.events ++ new ∧
      (m = .readOnly → cmdView new = [(.readSig, 0, 0), (.readFuses, 0, 0), (.readLock, 0, 0)]) ∧
      (m = .erase → cmdView new = [(.readSig, 0, 0), (.erase, 0, 0), (.readFuses, 0, 0), (.readLock, 0, 0)]) ∧
      (m = .writeDefaults → t.res.sig = 0x9007 → cmdView new =
        [(.readSig, 0, 0), (.writeFuse, 0x6A, 0x646C), (.writeFuse, 0xFF, 0x747C), (.readFuses, 0, 0), (.readLock, 0, 0)]) ∧
      (m = .writeDefaults → t.res.sig ∈ [0x910B, 0x9108, 0x9207, 0x9206, 0x930C, 0x930B] → cmdView new =
        [(.readSig, 0, 0), (.writeFuse, 0x62, 0x646C), (.writeFuse, 0xDF, 0x747C), (.writeFuse, 0xFF, 0x666E),
          (.readFuses, 0, 0), (.readLock, 0, 0)]) ∧
      (m = .writeDefaults → t.res.sig ∉ [0x9007, 0x910B, 0x9108, 0x9207, 0x9206, 0x930C, 0x930B] →
        cmdView new = [(.readSig, 0, 0), (.readFuses, 0, 0), (.readLock, 0, 0)])

/-! ### Assembler -/

/-- R60: an operand that assembles is the number written, never a truncation of it, and a number that does not fit is an
error. -/
def Obligations.AssemblerNeverTruncatesAnOperand : Prop :=
  ∀ (width : Nat) (cs : List Char) (n : Nat), parseNumber cs = some n →
    (n < 2 ^ width → ∃ x, operand width cs = .ok x ∧ x.toNat = n) ∧
    (2 ^ width ≤ n → operand width cs = .error .operandTooWide)
end

