-- ==== Sys2Proof/Laws/State.lean ====
section
/-! SUPPORT. One lemma per field per update of State, so that no later proof unfolds a record update. -/

namespace Sys2Proof.Machine

variable (s : State)

/-! ### `State.emit` -/

@[simp] theorem State.emit_cfg (e : Event) : (State.emit e s).cfg = s.cfg := rfl
@[simp] theorem State.emit_busy (e : Event) : (State.emit e s).busy = s.busy := rfl
@[simp] theorem State.emit_bs (e : Event) : (State.emit e s).bs = s.bs := rfl
@[simp] theorem State.emit_step (e : Event) : (State.emit e s).step = s.step := rfl
@[simp] theorem State.emit_op (e : Event) : (State.emit e s).op = s.op := rfl
@[simp] theorem State.emit_argV (e : Event) : (State.emit e s).argV = s.argV := rfl
@[simp] theorem State.emit_argA (e : Event) : (State.emit e s).argA = s.argA := rfl
@[simp] theorem State.emit_fv (e : Event) : (State.emit e s).fv = s.fv := rfl
@[simp] theorem State.emit_fa (e : Event) : (State.emit e s).fa = s.fa := rfl
@[simp] theorem State.emit_pos (e : Event) : (State.emit e s).pos = s.pos := rfl
@[simp] theorem State.emit_acc (e : Event) : (State.emit e s).acc = s.acc := rfl
@[simp] theorem State.emit_rx (e : Event) : (State.emit e s).rx = s.rx := rfl
@[simp] theorem State.emit_pollT (e : Event) : (State.emit e s).pollT = s.pollT := rfl
@[simp] theorem State.emit_sigacc (e : Event) : (State.emit e s).sigacc = s.sigacc := rfl
@[simp] theorem State.emit_sii (e : Event) : (State.emit e s).sii = s.sii := rfl
@[simp] theorem State.emit_sdi (e : Event) : (State.emit e s).sdi = s.sdi := rfl
@[simp] theorem State.emit_sci (e : Event) : (State.emit e s).sci = s.sci := rfl
@[simp] theorem State.emit_res (e : Event) : (State.emit e s).res = s.res := rfl
@[simp] theorem State.emit_mark (e : Event) : (State.emit e s).mark = s.mark := rfl
@[simp] theorem State.emit_target (e : Event) : (State.emit e s).target = s.target := rfl
@[simp] theorem State.emit_time (e : Event) : (State.emit e s).time = s.time := rfl
@[simp] theorem State.emit_host (e : Event) : (State.emit e s).host = s.host := rfl
@[simp] theorem State.emit_sess (e : Event) : (State.emit e s).sess = s.sess := rfl
@[simp] theorem State.emit_rails (e : Event) : (State.emit e s).rails = s.rails := rfl
@[simp] theorem State.emit_reads (e : Event) : (State.emit e s).reads = s.reads := rfl
@[simp] theorem State.emit_faults (e : Event) : (State.emit e s).faults = s.faults := rfl
@[simp] theorem State.emit_levels (e : Event) : (State.emit e s).levels = s.levels := rfl
@[simp] theorem State.emit_draws (e : Event) : (State.emit e s).draws = s.draws := rfl

/-! ### `State.raise` -/

@[simp] theorem State.raise_cfg (e : Event) : (State.raise e s).cfg = s.cfg := rfl
@[simp] theorem State.raise_busy (e : Event) : (State.raise e s).busy = s.busy := rfl
@[simp] theorem State.raise_bs (e : Event) : (State.raise e s).bs = s.bs := rfl
@[simp] theorem State.raise_step (e : Event) : (State.raise e s).step = s.step := rfl
@[simp] theorem State.raise_op (e : Event) : (State.raise e s).op = s.op := rfl
@[simp] theorem State.raise_argV (e : Event) : (State.raise e s).argV = s.argV := rfl
@[simp] theorem State.raise_argA (e : Event) : (State.raise e s).argA = s.argA := rfl
@[simp] theorem State.raise_fv (e : Event) : (State.raise e s).fv = s.fv := rfl
@[simp] theorem State.raise_fa (e : Event) : (State.raise e s).fa = s.fa := rfl
@[simp] theorem State.raise_pos (e : Event) : (State.raise e s).pos = s.pos := rfl
@[simp] theorem State.raise_acc (e : Event) : (State.raise e s).acc = s.acc := rfl
@[simp] theorem State.raise_rx (e : Event) : (State.raise e s).rx = s.rx := rfl
@[simp] theorem State.raise_pollT (e : Event) : (State.raise e s).pollT = s.pollT := rfl
@[simp] theorem State.raise_sigacc (e : Event) : (State.raise e s).sigacc = s.sigacc := rfl
@[simp] theorem State.raise_sii (e : Event) : (State.raise e s).sii = s.sii := rfl
@[simp] theorem State.raise_sdi (e : Event) : (State.raise e s).sdi = s.sdi := rfl
@[simp] theorem State.raise_sci (e : Event) : (State.raise e s).sci = s.sci := rfl
@[simp] theorem State.raise_res (e : Event) : (State.raise e s).res = s.res := rfl
@[simp] theorem State.raise_mark (e : Event) : (State.raise e s).mark = s.mark := rfl
@[simp] theorem State.raise_target (e : Event) : (State.raise e s).target = s.target := rfl
@[simp] theorem State.raise_time (e : Event) : (State.raise e s).time = s.time := rfl
@[simp] theorem State.raise_host (e : Event) : (State.raise e s).host = s.host := rfl
@[simp] theorem State.raise_sess (e : Event) : (State.raise e s).sess = s.sess := rfl
@[simp] theorem State.raise_rails (e : Event) : (State.raise e s).rails = s.rails := rfl
@[simp] theorem State.raise_reads (e : Event) : (State.raise e s).reads = s.reads := rfl
@[simp] theorem State.raise_faults (e : Event) : (State.raise e s).faults = s.faults := rfl
@[simp] theorem State.raise_levels (e : Event) : (State.raise e s).levels = s.levels := rfl
@[simp] theorem State.raise_draws (e : Event) : (State.raise e s).draws = s.draws := rfl

/-! ### `State.envTick` -/

@[simp] theorem State.envTick_cfg : (State.envTick s).cfg = s.cfg := rfl
@[simp] theorem State.envTick_busy : (State.envTick s).busy = s.busy := rfl
@[simp] theorem State.envTick_bs : (State.envTick s).bs = s.bs := rfl
@[simp] theorem State.envTick_step : (State.envTick s).step = s.step := rfl
@[simp] theorem State.envTick_op : (State.envTick s).op = s.op := rfl
@[simp] theorem State.envTick_argV : (State.envTick s).argV = s.argV := rfl
@[simp] theorem State.envTick_argA : (State.envTick s).argA = s.argA := rfl
@[simp] theorem State.envTick_fv : (State.envTick s).fv = s.fv := rfl
@[simp] theorem State.envTick_fa : (State.envTick s).fa = s.fa := rfl
@[simp] theorem State.envTick_pos : (State.envTick s).pos = s.pos := rfl
@[simp] theorem State.envTick_acc : (State.envTick s).acc = s.acc := rfl
@[simp] theorem State.envTick_rx : (State.envTick s).rx = s.rx := rfl
@[simp] theorem State.envTick_pollT : (State.envTick s).pollT = s.pollT := rfl
@[simp] theorem State.envTick_sigacc : (State.envTick s).sigacc = s.sigacc := rfl
@[simp] theorem State.envTick_sii : (State.envTick s).sii = s.sii := rfl
@[simp] theorem State.envTick_sdi : (State.envTick s).sdi = s.sdi := rfl
@[simp] theorem State.envTick_sci : (State.envTick s).sci = s.sci := rfl
@[simp] theorem State.envTick_res : (State.envTick s).res = s.res := rfl
@[simp] theorem State.envTick_mark : (State.envTick s).mark = s.mark := rfl
@[simp] theorem State.envTick_trace : (State.envTick s).trace = s.trace := rfl
@[simp] theorem State.envTick_host : (State.envTick s).host = s.host := rfl
@[simp] theorem State.envTick_sess : (State.envTick s).sess = s.sess := rfl
@[simp] theorem State.envTick_rails : (State.envTick s).rails = s.rails := rfl
@[simp] theorem State.envTick_reads : (State.envTick s).reads = s.reads := rfl
@[simp] theorem State.envTick_faults : (State.envTick s).faults = s.faults := rfl
@[simp] theorem State.envTick_levels : (State.envTick s).levels = s.levels := rfl
@[simp] theorem State.envTick_draws : (State.envTick s).draws = s.draws := rfl

/-! ### `State.refuse` -/

@[simp] theorem State.refuse_cfg (r : Refusal) : (State.refuse r s).cfg = s.cfg := rfl
@[simp] theorem State.refuse_busy (r : Refusal) : (State.refuse r s).busy = s.busy := rfl
@[simp] theorem State.refuse_bs (r : Refusal) : (State.refuse r s).bs = s.bs := rfl
@[simp] theorem State.refuse_step (r : Refusal) : (State.refuse r s).step = s.step := rfl
@[simp] theorem State.refuse_op (r : Refusal) : (State.refuse r s).op = s.op := rfl
@[simp] theorem State.refuse_argV (r : Refusal) : (State.refuse r s).argV = s.argV := rfl
@[simp] theorem State.refuse_argA (r : Refusal) : (State.refuse r s).argA = s.argA := rfl
@[simp] theorem State.refuse_fv (r : Refusal) : (State.refuse r s).fv = s.fv := rfl
@[simp] theorem State.refuse_fa (r : Refusal) : (State.refuse r s).fa = s.fa := rfl
@[simp] theorem State.refuse_pos (r : Refusal) : (State.refuse r s).pos = s.pos := rfl
@[simp] theorem State.refuse_acc (r : Refusal) : (State.refuse r s).acc = s.acc := rfl
@[simp] theorem State.refuse_rx (r : Refusal) : (State.refuse r s).rx = s.rx := rfl
@[simp] theorem State.refuse_pollT (r : Refusal) : (State.refuse r s).pollT = s.pollT := rfl
@[simp] theorem State.refuse_sigacc (r : Refusal) : (State.refuse r s).sigacc = s.sigacc := rfl
@[simp] theorem State.refuse_sii (r : Refusal) : (State.refuse r s).sii = s.sii := rfl
@[simp] theorem State.refuse_sdi (r : Refusal) : (State.refuse r s).sdi = s.sdi := rfl
@[simp] theorem State.refuse_sci (r : Refusal) : (State.refuse r s).sci = s.sci := rfl
@[simp] theorem State.refuse_res (r : Refusal) : (State.refuse r s).res = s.res := rfl
@[simp] theorem State.refuse_trace (r : Refusal) : (State.refuse r s).trace = s.trace := rfl
@[simp] theorem State.refuse_target (r : Refusal) : (State.refuse r s).target = s.target := rfl
@[simp] theorem State.refuse_time (r : Refusal) : (State.refuse r s).time = s.time := rfl
@[simp] theorem State.refuse_host (r : Refusal) : (State.refuse r s).host = s.host := rfl
@[simp] theorem State.refuse_sess (r : Refusal) : (State.refuse r s).sess = s.sess := rfl
@[simp] theorem State.refuse_rails (r : Refusal) : (State.refuse r s).rails = s.rails := rfl
@[simp] theorem State.refuse_reads (r : Refusal) : (State.refuse r s).reads = s.reads := rfl
@[simp] theorem State.refuse_faults (r : Refusal) : (State.refuse r s).faults = s.faults := rfl
@[simp] theorem State.refuse_levels (r : Refusal) : (State.refuse r s).levels = s.levels := rfl
@[simp] theorem State.refuse_draws (r : Refusal) : (State.refuse r s).draws = s.draws := rfl

/-! ### `State.txStart` -/

@[simp] theorem State.txStart_cfg (v a : Byte) : (State.txStart v a s).cfg = s.cfg := rfl
@[simp] theorem State.txStart_busy (v a : Byte) : (State.txStart v a s).busy = s.busy := rfl
@[simp] theorem State.txStart_step (v a : Byte) : (State.txStart v a s).step = s.step := rfl
@[simp] theorem State.txStart_op (v a : Byte) : (State.txStart v a s).op = s.op := rfl
@[simp] theorem State.txStart_argV (v a : Byte) : (State.txStart v a s).argV = s.argV := rfl
@[simp] theorem State.txStart_argA (v a : Byte) : (State.txStart v a s).argA = s.argA := rfl
@[simp] theorem State.txStart_rx (v a : Byte) : (State.txStart v a s).rx = s.rx := rfl
@[simp] theorem State.txStart_sigacc (v a : Byte) : (State.txStart v a s).sigacc = s.sigacc := rfl
@[simp] theorem State.txStart_sii (v a : Byte) : (State.txStart v a s).sii = s.sii := rfl
@[simp] theorem State.txStart_sdi (v a : Byte) : (State.txStart v a s).sdi = s.sdi := rfl
@[simp] theorem State.txStart_sci (v a : Byte) : (State.txStart v a s).sci = s.sci := rfl
@[simp] theorem State.txStart_res (v a : Byte) : (State.txStart v a s).res = s.res := rfl
@[simp] theorem State.txStart_mark (v a : Byte) : (State.txStart v a s).mark = s.mark := rfl
@[simp] theorem State.txStart_trace (v a : Byte) : (State.txStart v a s).trace = s.trace := rfl
@[simp] theorem State.txStart_target (v a : Byte) : (State.txStart v a s).target = s.target := rfl
@[simp] theorem State.txStart_time (v a : Byte) : (State.txStart v a s).time = s.time := rfl
@[simp] theorem State.txStart_host (v a : Byte) : (State.txStart v a s).host = s.host := rfl
@[simp] theorem State.txStart_sess (v a : Byte) : (State.txStart v a s).sess = s.sess := rfl
@[simp] theorem State.txStart_rails (v a : Byte) : (State.txStart v a s).rails = s.rails := rfl
@[simp] theorem State.txStart_reads (v a : Byte) : (State.txStart v a s).reads = s.reads := rfl
@[simp] theorem State.txStart_faults (v a : Byte) : (State.txStart v a s).faults = s.faults := rfl
@[simp] theorem State.txStart_levels (v a : Byte) : (State.txStart v a s).levels = s.levels := rfl
@[simp] theorem State.txStart_draws (v a : Byte) : (State.txStart v a s).draws = s.draws := rfl

/-! ### `State.targetFinish` -/

@[simp] theorem State.targetFinish_cfg : (State.targetFinish s).cfg = s.cfg := rfl
@[simp] theorem State.targetFinish_busy : (State.targetFinish s).busy = s.busy := rfl
@[simp] theorem State.targetFinish_bs : (State.targetFinish s).bs = s.bs := rfl
@[simp] theorem State.targetFinish_step : (State.targetFinish s).step = s.step := rfl
@[simp] theorem State.targetFinish_op : (State.targetFinish s).op = s.op := rfl
@[simp] theorem State.targetFinish_argV : (State.targetFinish s).argV = s.argV := rfl
@[simp] theorem State.targetFinish_argA : (State.targetFinish s).argA = s.argA := rfl
@[simp] theorem State.targetFinish_fv : (State.targetFinish s).fv = s.fv := rfl
@[simp] theorem State.targetFinish_fa : (State.targetFinish s).fa = s.fa := rfl
@[simp] theorem State.targetFinish_pos : (State.targetFinish s).pos = s.pos := rfl
@[simp] theorem State.targetFinish_acc : (State.targetFinish s).acc = s.acc := rfl
@[simp] theorem State.targetFinish_rx : (State.targetFinish s).rx = s.rx := rfl
@[simp] theorem State.targetFinish_pollT : (State.targetFinish s).pollT = s.pollT := rfl
@[simp] theorem State.targetFinish_sigacc : (State.targetFinish s).sigacc = s.sigacc := rfl
@[simp] theorem State.targetFinish_sii : (State.targetFinish s).sii = s.sii := rfl
@[simp] theorem State.targetFinish_sdi : (State.targetFinish s).sdi = s.sdi := rfl
@[simp] theorem State.targetFinish_sci : (State.targetFinish s).sci = s.sci := rfl
@[simp] theorem State.targetFinish_res : (State.targetFinish s).res = s.res := rfl
@[simp] theorem State.targetFinish_mark : (State.targetFinish s).mark = s.mark := rfl
@[simp] theorem State.targetFinish_trace : (State.targetFinish s).trace = s.trace := rfl
@[simp] theorem State.targetFinish_time : (State.targetFinish s).time = s.time := rfl
@[simp] theorem State.targetFinish_host : (State.targetFinish s).host = s.host := rfl
@[simp] theorem State.targetFinish_sess : (State.targetFinish s).sess = s.sess := rfl
@[simp] theorem State.targetFinish_rails : (State.targetFinish s).rails = s.rails := rfl
@[simp] theorem State.targetFinish_reads : (State.targetFinish s).reads = s.reads := rfl
@[simp] theorem State.targetFinish_faults : (State.targetFinish s).faults = s.faults := rfl
@[simp] theorem State.targetFinish_levels : (State.targetFinish s).levels = s.levels := rfl

/-! ### `State.presentBusy` -/

@[simp] theorem State.presentBusy_cfg (w : CmdWord) : (State.presentBusy w s).cfg = s.cfg := rfl
@[simp] theorem State.presentBusy_busy (w : CmdWord) : (State.presentBusy w s).busy = s.busy := rfl
@[simp] theorem State.presentBusy_bs (w : CmdWord) : (State.presentBusy w s).bs = s.bs := rfl
@[simp] theorem State.presentBusy_step (w : CmdWord) : (State.presentBusy w s).step = s.step := rfl
@[simp] theorem State.presentBusy_op (w : CmdWord) : (State.presentBusy w s).op = s.op := rfl
@[simp] theorem State.presentBusy_argV (w : CmdWord) : (State.presentBusy w s).argV = s.argV := rfl
@[simp] theorem State.presentBusy_argA (w : CmdWord) : (State.presentBusy w s).argA = s.argA := rfl
@[simp] theorem State.presentBusy_fv (w : CmdWord) : (State.presentBusy w s).fv = s.fv := rfl
@[simp] theorem State.presentBusy_fa (w : CmdWord) : (State.presentBusy w s).fa = s.fa := rfl
@[simp] theorem State.presentBusy_pos (w : CmdWord) : (State.presentBusy w s).pos = s.pos := rfl
@[simp] theorem State.presentBusy_acc (w : CmdWord) : (State.presentBusy w s).acc = s.acc := rfl
@[simp] theorem State.presentBusy_rx (w : CmdWord) : (State.presentBusy w s).rx = s.rx := rfl
@[simp] theorem State.presentBusy_pollT (w : CmdWord) : (State.presentBusy w s).pollT = s.pollT := rfl
@[simp] theorem State.presentBusy_sigacc (w : CmdWord) : (State.presentBusy w s).sigacc = s.sigacc := rfl
@[simp] theorem State.presentBusy_sii (w : CmdWord) : (State.presentBusy w s).sii = s.sii := rfl
@[simp] theorem State.presentBusy_sdi (w : CmdWord) : (State.presentBusy w s).sdi = s.sdi := rfl
@[simp] theorem State.presentBusy_sci (w : CmdWord) : (State.presentBusy w s).sci = s.sci := rfl
@[simp] theorem State.presentBusy_res (w : CmdWord) : (State.presentBusy w s).res = s.res := rfl
@[simp] theorem State.presentBusy_target (w : CmdWord) : (State.presentBusy w s).target = s.target := rfl
@[simp] theorem State.presentBusy_time (w : CmdWord) : (State.presentBusy w s).time = s.time := rfl
@[simp] theorem State.presentBusy_host (w : CmdWord) : (State.presentBusy w s).host = s.host := rfl
@[simp] theorem State.presentBusy_sess (w : CmdWord) : (State.presentBusy w s).sess = s.sess := rfl
@[simp] theorem State.presentBusy_rails (w : CmdWord) : (State.presentBusy w s).rails = s.rails := rfl
@[simp] theorem State.presentBusy_reads (w : CmdWord) : (State.presentBusy w s).reads = s.reads := rfl
@[simp] theorem State.presentBusy_faults (w : CmdWord) : (State.presentBusy w s).faults = s.faults := rfl
@[simp] theorem State.presentBusy_levels (w : CmdWord) : (State.presentBusy w s).levels = s.levels := rfl
@[simp] theorem State.presentBusy_draws (w : CmdWord) : (State.presentBusy w s).draws = s.draws := rfl

/-! ### `State.sdoRead` -/

@[simp] theorem State.sdoRead_cfg : (State.sdoRead s).cfg = s.cfg := by unfold State.sdoRead; split <;> rfl
@[simp] theorem State.sdoRead_busy : (State.sdoRead s).busy = s.busy := by unfold State.sdoRead; split <;> rfl
@[simp] theorem State.sdoRead_bs : (State.sdoRead s).bs = s.bs := by unfold State.sdoRead; split <;> rfl
@[simp] theorem State.sdoRead_step : (State.sdoRead s).step = s.step := by unfold State.sdoRead; split <;> rfl
@[simp] theorem State.sdoRead_op : (State.sdoRead s).op = s.op := by unfold State.sdoRead; split <;> rfl
@[simp] theorem State.sdoRead_argV : (State.sdoRead s).argV = s.argV := by unfold State.sdoRead; split <;> rfl
@[simp] theorem State.sdoRead_argA : (State.sdoRead s).argA = s.argA := by unfold State.sdoRead; split <;> rfl
@[simp] theorem State.sdoRead_fv : (State.sdoRead s).fv = s.fv := by unfold State.sdoRead; split <;> rfl
@[simp] theorem State.sdoRead_fa : (State.sdoRead s).fa = s.fa := by unfold State.sdoRead; split <;> rfl
@[simp] theorem State.sdoRead_pos : (State.sdoRead s).pos = s.pos := by unfold State.sdoRead; split <;> rfl
@[simp] theorem State.sdoRead_acc : (State.sdoRead s).acc = s.acc := by unfold State.sdoRead; split <;> rfl
@[simp] theorem State.sdoRead_rx : (State.sdoRead s).rx = s.rx := by unfold State.sdoRead; split <;> rfl
@[simp] theorem State.sdoRead_pollT : (State.sdoRead s).pollT = s.pollT := by unfold State.sdoRead; split <;> rfl
@[simp] theorem State.sdoRead_sigacc : (State.sdoRead s).sigacc = s.sigacc := by unfold State.sdoRead; split <;> rfl
@[simp] theorem State.sdoRead_sii : (State.sdoRead s).sii = s.sii := by unfold State.sdoRead; split <;> rfl
@[simp] theorem State.sdoRead_sdi : (State.sdoRead s).sdi = s.sdi := by unfold State.sdoRead; split <;> rfl
@[simp] theorem State.sdoRead_sci : (State.sdoRead s).sci = s.sci := by unfold State.sdoRead; split <;> rfl
@[simp] theorem State.sdoRead_res : (State.sdoRead s).res = s.res := by unfold State.sdoRead; split <;> rfl
@[simp] theorem State.sdoRead_mark : (State.sdoRead s).mark = s.mark := by unfold State.sdoRead; split <;> rfl
@[simp] theorem State.sdoRead_trace : (State.sdoRead s).trace = s.trace := by unfold State.sdoRead; split <;> rfl
@[simp] theorem State.sdoRead_target : (State.sdoRead s).target = s.target := by unfold State.sdoRead; split <;> rfl
@[simp] theorem State.sdoRead_time : (State.sdoRead s).time = s.time := by unfold State.sdoRead; split <;> rfl
@[simp] theorem State.sdoRead_host : (State.sdoRead s).host = s.host := by unfold State.sdoRead; split <;> rfl
@[simp] theorem State.sdoRead_sess : (State.sdoRead s).sess = s.sess := by unfold State.sdoRead; split <;> rfl
@[simp] theorem State.sdoRead_rails : (State.sdoRead s).rails = s.rails := by unfold State.sdoRead; split <;> rfl
@[simp] theorem State.sdoRead_reads : (State.sdoRead s).reads = s.reads := by unfold State.sdoRead; split <;> rfl
@[simp] theorem State.sdoRead_faults : (State.sdoRead s).faults = s.faults := by unfold State.sdoRead; split <;> rfl

/-! ### `State.targetBegin` -/

@[simp] theorem State.targetBegin_cfg : (State.targetBegin s).cfg = s.cfg := by unfold State.targetBegin; split <;> rfl
@[simp] theorem State.targetBegin_busy : (State.targetBegin s).busy = s.busy := by unfold State.targetBegin; split <;> rfl
@[simp] theorem State.targetBegin_bs : (State.targetBegin s).bs = s.bs := by unfold State.targetBegin; split <;> rfl
@[simp] theorem State.targetBegin_step : (State.targetBegin s).step = s.step := by unfold State.targetBegin; split <;> rfl
@[simp] theorem State.targetBegin_op : (State.targetBegin s).op = s.op := by unfold State.targetBegin; split <;> rfl
@[simp] theorem State.targetBegin_argV : (State.targetBegin s).argV = s.argV := by unfold State.targetBegin; split <;> rfl
@[simp] theorem State.targetBegin_argA : (State.targetBegin s).argA = s.argA := by unfold State.targetBegin; split <;> rfl
@[simp] theorem State.targetBegin_fv : (State.targetBegin s).fv = s.fv := by unfold State.targetBegin; split <;> rfl
@[simp] theorem State.targetBegin_fa : (State.targetBegin s).fa = s.fa := by unfold State.targetBegin; split <;> rfl
@[simp] theorem State.targetBegin_pos : (State.targetBegin s).pos = s.pos := by unfold State.targetBegin; split <;> rfl
@[simp] theorem State.targetBegin_acc : (State.targetBegin s).acc = s.acc := by unfold State.targetBegin; split <;> rfl
@[simp] theorem State.targetBegin_rx : (State.targetBegin s).rx = s.rx := by unfold State.targetBegin; split <;> rfl
@[simp] theorem State.targetBegin_pollT : (State.targetBegin s).pollT = s.pollT := by unfold State.targetBegin; split <;> rfl
@[simp] theorem State.targetBegin_sigacc : (State.targetBegin s).sigacc = s.sigacc := by unfold State.targetBegin; split <;> rfl
@[simp] theorem State.targetBegin_sii : (State.targetBegin s).sii = s.sii := by unfold State.targetBegin; split <;> rfl
@[simp] theorem State.targetBegin_sdi : (State.targetBegin s).sdi = s.sdi := by unfold State.targetBegin; split <;> rfl
@[simp] theorem State.targetBegin_sci : (State.targetBegin s).sci = s.sci := by unfold State.targetBegin; split <;> rfl
@[simp] theorem State.targetBegin_res : (State.targetBegin s).res = s.res := by unfold State.targetBegin; split <;> rfl
@[simp] theorem State.targetBegin_mark : (State.targetBegin s).mark = s.mark := by unfold State.targetBegin; split <;> rfl
@[simp] theorem State.targetBegin_trace : (State.targetBegin s).trace = s.trace := by unfold State.targetBegin; split <;> rfl
@[simp] theorem State.targetBegin_time : (State.targetBegin s).time = s.time := by unfold State.targetBegin; split <;> rfl
@[simp] theorem State.targetBegin_host : (State.targetBegin s).host = s.host := by unfold State.targetBegin; split <;> rfl
@[simp] theorem State.targetBegin_sess : (State.targetBegin s).sess = s.sess := by unfold State.targetBegin; split <;> rfl
@[simp] theorem State.targetBegin_rails : (State.targetBegin s).rails = s.rails := by unfold State.targetBegin; split <;> rfl
@[simp] theorem State.targetBegin_reads : (State.targetBegin s).reads = s.reads := by unfold State.targetBegin; split <;> rfl
@[simp] theorem State.targetBegin_faults : (State.targetBegin s).faults = s.faults := by unfold State.targetBegin; split <;> rfl
@[simp] theorem State.targetBegin_levels : (State.targetBegin s).levels = s.levels := by unfold State.targetBegin; split <;> rfl
@[simp] theorem State.targetBegin_draws : (State.targetBegin s).draws = s.draws := by unfold State.targetBegin; split <;> rfl

/-! ### `State.startEntry` -/

@[simp] theorem State.startEntry_cfg : (State.startEntry s).cfg = s.cfg := by unfold State.startEntry; split <;> rfl
@[simp] theorem State.startEntry_busy : (State.startEntry s).busy = s.busy := by unfold State.startEntry; split <;> rfl
@[simp] theorem State.startEntry_step : (State.startEntry s).step = s.step := by unfold State.startEntry; split <;> rfl
@[simp] theorem State.startEntry_op : (State.startEntry s).op = s.op := by unfold State.startEntry; split <;> rfl
@[simp] theorem State.startEntry_argV : (State.startEntry s).argV = s.argV := by unfold State.startEntry; split <;> rfl
@[simp] theorem State.startEntry_argA : (State.startEntry s).argA = s.argA := by unfold State.startEntry; split <;> rfl
@[simp] theorem State.startEntry_rx : (State.startEntry s).rx = s.rx := by unfold State.startEntry; split <;> rfl
@[simp] theorem State.startEntry_sigacc : (State.startEntry s).sigacc = s.sigacc := by unfold State.startEntry; split <;> rfl
@[simp] theorem State.startEntry_sii : (State.startEntry s).sii = s.sii := by unfold State.startEntry; split <;> rfl
@[simp] theorem State.startEntry_sdi : (State.startEntry s).sdi = s.sdi := by unfold State.startEntry; split <;> rfl
@[simp] theorem State.startEntry_sci : (State.startEntry s).sci = s.sci := by unfold State.startEntry; split <;> rfl
@[simp] theorem State.startEntry_res : (State.startEntry s).res = s.res := by unfold State.startEntry; split <;> rfl
@[simp] theorem State.startEntry_mark : (State.startEntry s).mark = s.mark := by unfold State.startEntry; split <;> rfl
@[simp] theorem State.startEntry_trace : (State.startEntry s).trace = s.trace := by unfold State.startEntry; split <;> rfl
@[simp] theorem State.startEntry_target : (State.startEntry s).target = s.target := by unfold State.startEntry; split <;> rfl
@[simp] theorem State.startEntry_time : (State.startEntry s).time = s.time := by unfold State.startEntry; split <;> rfl
@[simp] theorem State.startEntry_host : (State.startEntry s).host = s.host := by unfold State.startEntry; split <;> rfl
@[simp] theorem State.startEntry_sess : (State.startEntry s).sess = s.sess := by unfold State.startEntry; split <;> rfl
@[simp] theorem State.startEntry_rails : (State.startEntry s).rails = s.rails := by unfold State.startEntry; split <;> rfl
@[simp] theorem State.startEntry_reads : (State.startEntry s).reads = s.reads := by unfold State.startEntry; split <;> rfl
@[simp] theorem State.startEntry_faults : (State.startEntry s).faults = s.faults := by unfold State.startEntry; split <;> rfl
@[simp] theorem State.startEntry_levels : (State.startEntry s).levels = s.levels := by unfold State.startEntry; split <;> rfl
@[simp] theorem State.startEntry_draws : (State.startEntry s).draws = s.draws := by unfold State.startEntry; split <;> rfl

/-! ### `State.sinkResult` -/

@[simp] theorem State.sinkResult_cfg : (State.sinkResult s).cfg = s.cfg := by unfold State.sinkResult; split <;> rfl
@[simp] theorem State.sinkResult_busy : (State.sinkResult s).busy = s.busy := by unfold State.sinkResult; split <;> rfl
@[simp] theorem State.sinkResult_bs : (State.sinkResult s).bs = s.bs := by unfold State.sinkResult; split <;> rfl
@[simp] theorem State.sinkResult_step : (State.sinkResult s).step = s.step := by unfold State.sinkResult; split <;> rfl
@[simp] theorem State.sinkResult_op : (State.sinkResult s).op = s.op := by unfold State.sinkResult; split <;> rfl
@[simp] theorem State.sinkResult_argV : (State.sinkResult s).argV = s.argV := by unfold State.sinkResult; split <;> rfl
@[simp] theorem State.sinkResult_argA : (State.sinkResult s).argA = s.argA := by unfold State.sinkResult; split <;> rfl
@[simp] theorem State.sinkResult_fv : (State.sinkResult s).fv = s.fv := by unfold State.sinkResult; split <;> rfl
@[simp] theorem State.sinkResult_fa : (State.sinkResult s).fa = s.fa := by unfold State.sinkResult; split <;> rfl
@[simp] theorem State.sinkResult_pos : (State.sinkResult s).pos = s.pos := by unfold State.sinkResult; split <;> rfl
@[simp] theorem State.sinkResult_acc : (State.sinkResult s).acc = s.acc := by unfold State.sinkResult; split <;> rfl
@[simp] theorem State.sinkResult_rx : (State.sinkResult s).rx = s.rx := by unfold State.sinkResult; split <;> rfl
@[simp] theorem State.sinkResult_pollT : (State.sinkResult s).pollT = s.pollT := by unfold State.sinkResult; split <;> rfl
@[simp] theorem State.sinkResult_sii : (State.sinkResult s).sii = s.sii := by unfold State.sinkResult; split <;> rfl
@[simp] theorem State.sinkResult_sdi : (State.sinkResult s).sdi = s.sdi := by unfold State.sinkResult; split <;> rfl
@[simp] theorem State.sinkResult_sci : (State.sinkResult s).sci = s.sci := by unfold State.sinkResult; split <;> rfl
@[simp] theorem State.sinkResult_mark : (State.sinkResult s).mark = s.mark := by unfold State.sinkResult; split <;> rfl
@[simp] theorem State.sinkResult_trace : (State.sinkResult s).trace = s.trace := by unfold State.sinkResult; split <;> rfl
@[simp] theorem State.sinkResult_target : (State.sinkResult s).target = s.target := by unfold State.sinkResult; split <;> rfl
@[simp] theorem State.sinkResult_time : (State.sinkResult s).time = s.time := by unfold State.sinkResult; split <;> rfl
@[simp] theorem State.sinkResult_host : (State.sinkResult s).host = s.host := by unfold State.sinkResult; split <;> rfl
@[simp] theorem State.sinkResult_sess : (State.sinkResult s).sess = s.sess := by unfold State.sinkResult; split <;> rfl
@[simp] theorem State.sinkResult_rails : (State.sinkResult s).rails = s.rails := by unfold State.sinkResult; split <;> rfl
@[simp] theorem State.sinkResult_reads : (State.sinkResult s).reads = s.reads := by unfold State.sinkResult; split <;> rfl
@[simp] theorem State.sinkResult_faults : (State.sinkResult s).faults = s.faults := by unfold State.sinkResult; split <;> rfl
@[simp] theorem State.sinkResult_levels : (State.sinkResult s).levels = s.levels := by unfold State.sinkResult; split <;> rfl
@[simp] theorem State.sinkResult_draws : (State.sinkResult s).draws = s.draws := by unfold State.sinkResult; split <;> rfl

/-! ### `State.pollDecide` -/

@[simp] theorem State.pollDecide_cfg (b : Bool) : (State.pollDecide b s).cfg = s.cfg := by unfold State.pollDecide; split <;> (try split) <;> rfl
@[simp] theorem State.pollDecide_busy (b : Bool) : (State.pollDecide b s).busy = s.busy := by unfold State.pollDecide; split <;> (try split) <;> rfl
@[simp] theorem State.pollDecide_step (b : Bool) : (State.pollDecide b s).step = s.step := by unfold State.pollDecide; split <;> (try split) <;> rfl
@[simp] theorem State.pollDecide_op (b : Bool) : (State.pollDecide b s).op = s.op := by unfold State.pollDecide; split <;> (try split) <;> rfl
@[simp] theorem State.pollDecide_argV (b : Bool) : (State.pollDecide b s).argV = s.argV := by unfold State.pollDecide; split <;> (try split) <;> rfl
@[simp] theorem State.pollDecide_argA (b : Bool) : (State.pollDecide b s).argA = s.argA := by unfold State.pollDecide; split <;> (try split) <;> rfl
@[simp] theorem State.pollDecide_fv (b : Bool) : (State.pollDecide b s).fv = s.fv := by unfold State.pollDecide; split <;> (try split) <;> rfl
@[simp] theorem State.pollDecide_fa (b : Bool) : (State.pollDecide b s).fa = s.fa := by unfold State.pollDecide; split <;> (try split) <;> rfl
@[simp] theorem State.pollDecide_pos (b : Bool) : (State.pollDecide b s).pos = s.pos := by unfold State.pollDecide; split <;> (try split) <;> rfl
@[simp] theorem State.pollDecide_acc (b : Bool) : (State.pollDecide b s).acc = s.acc := by unfold State.pollDecide; split <;> (try split) <;> rfl
@[simp] theorem State.pollDecide_rx (b : Bool) : (State.pollDecide b s).rx = s.rx := by unfold State.pollDecide; split <;> (try split) <;> rfl
@[simp] theorem State.pollDecide_pollT (b : Bool) : (State.pollDecide b s).pollT = s.pollT := by unfold State.pollDecide; split <;> (try split) <;> rfl
@[simp] theorem State.pollDecide_sigacc (b : Bool) : (State.pollDecide b s).sigacc = s.sigacc := by unfold State.pollDecide; split <;> (try split) <;> rfl
@[simp] theorem State.pollDecide_sii (b : Bool) : (State.pollDecide b s).sii = s.sii := by unfold State.pollDecide; split <;> (try split) <;> rfl
@[simp] theorem State.pollDecide_sdi (b : Bool) : (State.pollDecide b s).sdi = s.sdi := by unfold State.pollDecide; split <;> (try split) <;> rfl
@[simp] theorem State.pollDecide_sci (b : Bool) : (State.pollDecide b s).sci = s.sci := by unfold State.pollDecide; split <;> (try split) <;> rfl
@[simp] theorem State.pollDecide_res (b : Bool) : (State.pollDecide b s).res = s.res := by unfold State.pollDecide; split <;> (try split) <;> rfl
@[simp] theorem State.pollDecide_mark (b : Bool) : (State.pollDecide b s).mark = s.mark := by unfold State.pollDecide; split <;> (try split) <;> rfl
@[simp] theorem State.pollDecide_target (b : Bool) : (State.pollDecide b s).target = s.target := by unfold State.pollDecide; split <;> (try split) <;> rfl
@[simp] theorem State.pollDecide_time (b : Bool) : (State.pollDecide b s).time = s.time := by unfold State.pollDecide; split <;> (try split) <;> rfl
@[simp] theorem State.pollDecide_host (b : Bool) : (State.pollDecide b s).host = s.host := by unfold State.pollDecide; split <;> (try split) <;> rfl
@[simp] theorem State.pollDecide_sess (b : Bool) : (State.pollDecide b s).sess = s.sess := by unfold State.pollDecide; split <;> (try split) <;> rfl
@[simp] theorem State.pollDecide_rails (b : Bool) : (State.pollDecide b s).rails = s.rails := by unfold State.pollDecide; split <;> (try split) <;> rfl
@[simp] theorem State.pollDecide_reads (b : Bool) : (State.pollDecide b s).reads = s.reads := by unfold State.pollDecide; split <;> (try split) <;> rfl
@[simp] theorem State.pollDecide_faults (b : Bool) : (State.pollDecide b s).faults = s.faults := by unfold State.pollDecide; split <;> (try split) <;> rfl
@[simp] theorem State.pollDecide_levels (b : Bool) : (State.pollDecide b s).levels = s.levels := by unfold State.pollDecide; split <;> (try split) <;> rfl
@[simp] theorem State.pollDecide_draws (b : Bool) : (State.pollDecide b s).draws = s.draws := by unfold State.pollDecide; split <;> (try split) <;> rfl

/-! ### `State.pollStep` -/

@[simp] theorem State.pollStep_cfg (tick : Bool) : (State.pollStep tick s).cfg = s.cfg := by cases tick <;> simp [State.pollStep]
@[simp] theorem State.pollStep_busy (tick : Bool) : (State.pollStep tick s).busy = s.busy := by cases tick <;> simp [State.pollStep]
@[simp] theorem State.pollStep_step (tick : Bool) : (State.pollStep tick s).step = s.step := by cases tick <;> simp [State.pollStep]
@[simp] theorem State.pollStep_op (tick : Bool) : (State.pollStep tick s).op = s.op := by cases tick <;> simp [State.pollStep]
@[simp] theorem State.pollStep_argV (tick : Bool) : (State.pollStep tick s).argV = s.argV := by cases tick <;> simp [State.pollStep]
@[simp] theorem State.pollStep_argA (tick : Bool) : (State.pollStep tick s).argA = s.argA := by cases tick <;> simp [State.pollStep]
@[simp] theorem State.pollStep_fv (tick : Bool) : (State.pollStep tick s).fv = s.fv := by cases tick <;> simp [State.pollStep]
@[simp] theorem State.pollStep_fa (tick : Bool) : (State.pollStep tick s).fa = s.fa := by cases tick <;> simp [State.pollStep]
@[simp] theorem State.pollStep_pos (tick : Bool) : (State.pollStep tick s).pos = s.pos := by cases tick <;> simp [State.pollStep]
@[simp] theorem State.pollStep_acc (tick : Bool) : (State.pollStep tick s).acc = s.acc := by cases tick <;> simp [State.pollStep]
@[simp] theorem State.pollStep_rx (tick : Bool) : (State.pollStep tick s).rx = s.rx := by cases tick <;> simp [State.pollStep]
@[simp] theorem State.pollStep_sigacc (tick : Bool) : (State.pollStep tick s).sigacc = s.sigacc := by cases tick <;> simp [State.pollStep]
@[simp] theorem State.pollStep_sii (tick : Bool) : (State.pollStep tick s).sii = s.sii := by cases tick <;> simp [State.pollStep]
@[simp] theorem State.pollStep_sdi (tick : Bool) : (State.pollStep tick s).sdi = s.sdi := by cases tick <;> simp [State.pollStep]
@[simp] theorem State.pollStep_sci (tick : Bool) : (State.pollStep tick s).sci = s.sci := by cases tick <;> simp [State.pollStep]
@[simp] theorem State.pollStep_res (tick : Bool) : (State.pollStep tick s).res = s.res := by cases tick <;> simp [State.pollStep]
@[simp] theorem State.pollStep_mark (tick : Bool) : (State.pollStep tick s).mark = s.mark := by cases tick <;> simp [State.pollStep]
@[simp] theorem State.pollStep_target (tick : Bool) : (State.pollStep tick s).target = s.target := by cases tick <;> simp [State.pollStep]
@[simp] theorem State.pollStep_time (tick : Bool) : (State.pollStep tick s).time = s.time := by cases tick <;> simp [State.pollStep]
@[simp] theorem State.pollStep_host (tick : Bool) : (State.pollStep tick s).host = s.host := by cases tick <;> simp [State.pollStep]
@[simp] theorem State.pollStep_sess (tick : Bool) : (State.pollStep tick s).sess = s.sess := by cases tick <;> simp [State.pollStep]
@[simp] theorem State.pollStep_rails (tick : Bool) : (State.pollStep tick s).rails = s.rails := by cases tick <;> simp [State.pollStep]
@[simp] theorem State.pollStep_reads (tick : Bool) : (State.pollStep tick s).reads = s.reads := by cases tick <;> simp [State.pollStep]
@[simp] theorem State.pollStep_faults (tick : Bool) : (State.pollStep tick s).faults = s.faults := by cases tick <;> simp [State.pollStep]

/-! ### `State.driveStep` -/

@[simp] theorem State.driveStep_cfg : (State.driveStep s).cfg = s.cfg := by simp [State.driveStep]
@[simp] theorem State.driveStep_busy : (State.driveStep s).busy = s.busy := by simp [State.driveStep]
@[simp] theorem State.driveStep_step : (State.driveStep s).step = s.step := by simp [State.driveStep]
@[simp] theorem State.driveStep_op : (State.driveStep s).op = s.op := by simp [State.driveStep]
@[simp] theorem State.driveStep_argV : (State.driveStep s).argV = s.argV := by simp [State.driveStep]
@[simp] theorem State.driveStep_argA : (State.driveStep s).argA = s.argA := by simp [State.driveStep]
@[simp] theorem State.driveStep_fv : (State.driveStep s).fv = s.fv := by simp [State.driveStep]
@[simp] theorem State.driveStep_fa : (State.driveStep s).fa = s.fa := by simp [State.driveStep]
@[simp] theorem State.driveStep_pos : (State.driveStep s).pos = s.pos := by simp [State.driveStep]
@[simp] theorem State.driveStep_acc : (State.driveStep s).acc = s.acc := by simp [State.driveStep]
@[simp] theorem State.driveStep_rx : (State.driveStep s).rx = s.rx := by simp [State.driveStep]
@[simp] theorem State.driveStep_pollT : (State.driveStep s).pollT = s.pollT := by simp [State.driveStep]
@[simp] theorem State.driveStep_sigacc : (State.driveStep s).sigacc = s.sigacc := by simp [State.driveStep]
@[simp] theorem State.driveStep_sci : (State.driveStep s).sci = s.sci := by simp [State.driveStep]
@[simp] theorem State.driveStep_res : (State.driveStep s).res = s.res := by simp [State.driveStep]
@[simp] theorem State.driveStep_mark : (State.driveStep s).mark = s.mark := by simp [State.driveStep]
@[simp] theorem State.driveStep_time : (State.driveStep s).time = s.time := by simp [State.driveStep]
@[simp] theorem State.driveStep_host : (State.driveStep s).host = s.host := by simp [State.driveStep]
@[simp] theorem State.driveStep_sess : (State.driveStep s).sess = s.sess := by simp [State.driveStep]
@[simp] theorem State.driveStep_rails : (State.driveStep s).rails = s.rails := by simp [State.driveStep]
@[simp] theorem State.driveStep_reads : (State.driveStep s).reads = s.reads := by simp [State.driveStep]
@[simp] theorem State.driveStep_faults : (State.driveStep s).faults = s.faults := by simp [State.driveStep]
@[simp] theorem State.driveStep_levels : (State.driveStep s).levels = s.levels := by simp [State.driveStep]
@[simp] theorem State.driveStep_draws : (State.driveStep s).draws = s.draws := by simp [State.driveStep]

/-! ### `State.sampleStep` -/

@[simp] theorem State.sampleStep_cfg : (State.sampleStep s).cfg = s.cfg := by simp [State.sampleStep]
@[simp] theorem State.sampleStep_busy : (State.sampleStep s).busy = s.busy := by simp [State.sampleStep]
@[simp] theorem State.sampleStep_step : (State.sampleStep s).step = s.step := by simp [State.sampleStep]
@[simp] theorem State.sampleStep_op : (State.sampleStep s).op = s.op := by simp [State.sampleStep]
@[simp] theorem State.sampleStep_argV : (State.sampleStep s).argV = s.argV := by simp [State.sampleStep]
@[simp] theorem State.sampleStep_argA : (State.sampleStep s).argA = s.argA := by simp [State.sampleStep]
@[simp] theorem State.sampleStep_fv : (State.sampleStep s).fv = s.fv := by simp [State.sampleStep]
@[simp] theorem State.sampleStep_fa : (State.sampleStep s).fa = s.fa := by simp [State.sampleStep]
@[simp] theorem State.sampleStep_pos : (State.sampleStep s).pos = s.pos := by simp [State.sampleStep]
@[simp] theorem State.sampleStep_rx : (State.sampleStep s).rx = s.rx := by simp [State.sampleStep]
@[simp] theorem State.sampleStep_pollT : (State.sampleStep s).pollT = s.pollT := by simp [State.sampleStep]
@[simp] theorem State.sampleStep_sigacc : (State.sampleStep s).sigacc = s.sigacc := by simp [State.sampleStep]
@[simp] theorem State.sampleStep_sii : (State.sampleStep s).sii = s.sii := by simp [State.sampleStep]
@[simp] theorem State.sampleStep_sdi : (State.sampleStep s).sdi = s.sdi := by simp [State.sampleStep]
@[simp] theorem State.sampleStep_sci : (State.sampleStep s).sci = s.sci := by simp [State.sampleStep]
@[simp] theorem State.sampleStep_res : (State.sampleStep s).res = s.res := by simp [State.sampleStep]
@[simp] theorem State.sampleStep_mark : (State.sampleStep s).mark = s.mark := by simp [State.sampleStep]
@[simp] theorem State.sampleStep_target : (State.sampleStep s).target = s.target := by simp [State.sampleStep]
@[simp] theorem State.sampleStep_time : (State.sampleStep s).time = s.time := by simp [State.sampleStep]
@[simp] theorem State.sampleStep_host : (State.sampleStep s).host = s.host := by simp [State.sampleStep]
@[simp] theorem State.sampleStep_sess : (State.sampleStep s).sess = s.sess := by simp [State.sampleStep]
@[simp] theorem State.sampleStep_rails : (State.sampleStep s).rails = s.rails := by simp [State.sampleStep]
@[simp] theorem State.sampleStep_reads : (State.sampleStep s).reads = s.reads := by simp [State.sampleStep]
@[simp] theorem State.sampleStep_faults : (State.sampleStep s).faults = s.faults := by simp [State.sampleStep]

/-! ### `State.clkHighStep` -/

@[simp] theorem State.clkHighStep_cfg : (State.clkHighStep s).cfg = s.cfg := rfl
@[simp] theorem State.clkHighStep_busy : (State.clkHighStep s).busy = s.busy := rfl
@[simp] theorem State.clkHighStep_step : (State.clkHighStep s).step = s.step := rfl
@[simp] theorem State.clkHighStep_op : (State.clkHighStep s).op = s.op := rfl
@[simp] theorem State.clkHighStep_argV : (State.clkHighStep s).argV = s.argV := rfl
@[simp] theorem State.clkHighStep_argA : (State.clkHighStep s).argA = s.argA := rfl
@[simp] theorem State.clkHighStep_fv : (State.clkHighStep s).fv = s.fv := rfl
@[simp] theorem State.clkHighStep_fa : (State.clkHighStep s).fa = s.fa := rfl
@[simp] theorem State.clkHighStep_pos : (State.clkHighStep s).pos = s.pos := rfl
@[simp] theorem State.clkHighStep_acc : (State.clkHighStep s).acc = s.acc := rfl
@[simp] theorem State.clkHighStep_rx : (State.clkHighStep s).rx = s.rx := rfl
@[simp] theorem State.clkHighStep_pollT : (State.clkHighStep s).pollT = s.pollT := rfl
@[simp] theorem State.clkHighStep_sigacc : (State.clkHighStep s).sigacc = s.sigacc := rfl
@[simp] theorem State.clkHighStep_sii : (State.clkHighStep s).sii = s.sii := rfl
@[simp] theorem State.clkHighStep_sdi : (State.clkHighStep s).sdi = s.sdi := rfl
@[simp] theorem State.clkHighStep_res : (State.clkHighStep s).res = s.res := rfl
@[simp] theorem State.clkHighStep_mark : (State.clkHighStep s).mark = s.mark := rfl
@[simp] theorem State.clkHighStep_target : (State.clkHighStep s).target = s.target := rfl
@[simp] theorem State.clkHighStep_time : (State.clkHighStep s).time = s.time := rfl
@[simp] theorem State.clkHighStep_host : (State.clkHighStep s).host = s.host := rfl
@[simp] theorem State.clkHighStep_sess : (State.clkHighStep s).sess = s.sess := rfl
@[simp] theorem State.clkHighStep_rails : (State.clkHighStep s).rails = s.rails := rfl
@[simp] theorem State.clkHighStep_reads : (State.clkHighStep s).reads = s.reads := rfl
@[simp] theorem State.clkHighStep_faults : (State.clkHighStep s).faults = s.faults := rfl
@[simp] theorem State.clkHighStep_levels : (State.clkHighStep s).levels = s.levels := rfl
@[simp] theorem State.clkHighStep_draws : (State.clkHighStep s).draws = s.draws := rfl

/-! ### `State.lookAt` -/

@[simp] theorem State.lookAt_cfg (p : Port) : (State.lookAt p s).cfg = s.cfg := by unfold State.lookAt; split <;> rfl
@[simp] theorem State.lookAt_busy (p : Port) : (State.lookAt p s).busy = s.busy := by unfold State.lookAt; split <;> rfl
@[simp] theorem State.lookAt_bs (p : Port) : (State.lookAt p s).bs = s.bs := by unfold State.lookAt; split <;> rfl
@[simp] theorem State.lookAt_step (p : Port) : (State.lookAt p s).step = s.step := by unfold State.lookAt; split <;> rfl
@[simp] theorem State.lookAt_op (p : Port) : (State.lookAt p s).op = s.op := by unfold State.lookAt; split <;> rfl
@[simp] theorem State.lookAt_argV (p : Port) : (State.lookAt p s).argV = s.argV := by unfold State.lookAt; split <;> rfl
@[simp] theorem State.lookAt_argA (p : Port) : (State.lookAt p s).argA = s.argA := by unfold State.lookAt; split <;> rfl
@[simp] theorem State.lookAt_fv (p : Port) : (State.lookAt p s).fv = s.fv := by unfold State.lookAt; split <;> rfl
@[simp] theorem State.lookAt_fa (p : Port) : (State.lookAt p s).fa = s.fa := by unfold State.lookAt; split <;> rfl
@[simp] theorem State.lookAt_pos (p : Port) : (State.lookAt p s).pos = s.pos := by unfold State.lookAt; split <;> rfl
@[simp] theorem State.lookAt_acc (p : Port) : (State.lookAt p s).acc = s.acc := by unfold State.lookAt; split <;> rfl
@[simp] theorem State.lookAt_rx (p : Port) : (State.lookAt p s).rx = s.rx := by unfold State.lookAt; split <;> rfl
@[simp] theorem State.lookAt_pollT (p : Port) : (State.lookAt p s).pollT = s.pollT := by unfold State.lookAt; split <;> rfl
@[simp] theorem State.lookAt_sigacc (p : Port) : (State.lookAt p s).sigacc = s.sigacc := by unfold State.lookAt; split <;> rfl
@[simp] theorem State.lookAt_sii (p : Port) : (State.lookAt p s).sii = s.sii := by unfold State.lookAt; split <;> rfl
@[simp] theorem State.lookAt_sdi (p : Port) : (State.lookAt p s).sdi = s.sdi := by unfold State.lookAt; split <;> rfl
@[simp] theorem State.lookAt_sci (p : Port) : (State.lookAt p s).sci = s.sci := by unfold State.lookAt; split <;> rfl
@[simp] theorem State.lookAt_res (p : Port) : (State.lookAt p s).res = s.res := by unfold State.lookAt; split <;> rfl
@[simp] theorem State.lookAt_mark (p : Port) : (State.lookAt p s).mark = s.mark := by unfold State.lookAt; split <;> rfl
@[simp] theorem State.lookAt_trace (p : Port) : (State.lookAt p s).trace = s.trace := by unfold State.lookAt; split <;> rfl
@[simp] theorem State.lookAt_target (p : Port) : (State.lookAt p s).target = s.target := by unfold State.lookAt; split <;> rfl
@[simp] theorem State.lookAt_time (p : Port) : (State.lookAt p s).time = s.time := by unfold State.lookAt; split <;> rfl
@[simp] theorem State.lookAt_host (p : Port) : (State.lookAt p s).host = s.host := by unfold State.lookAt; split <;> rfl
@[simp] theorem State.lookAt_sess (p : Port) : (State.lookAt p s).sess = s.sess := by unfold State.lookAt; split <;> rfl
@[simp] theorem State.lookAt_rails (p : Port) : (State.lookAt p s).rails = s.rails := by unfold State.lookAt; split <;> rfl
@[simp] theorem State.lookAt_reads (p : Port) : (State.lookAt p s).reads = s.reads := by unfold State.lookAt; split <;> rfl
@[simp] theorem State.lookAt_levels (p : Port) : (State.lookAt p s).levels = s.levels := by unfold State.lookAt; split <;> rfl

/-! ### `State.clearRegisters` -/

@[simp] theorem State.clearRegisters_cfg : (State.clearRegisters s).cfg = s.cfg := rfl
@[simp] theorem State.clearRegisters_res : (State.clearRegisters s).res = s.res := rfl
@[simp] theorem State.clearRegisters_mark : (State.clearRegisters s).mark = s.mark := rfl
@[simp] theorem State.clearRegisters_trace : (State.clearRegisters s).trace = s.trace := rfl
@[simp] theorem State.clearRegisters_target : (State.clearRegisters s).target = s.target := rfl
@[simp] theorem State.clearRegisters_time : (State.clearRegisters s).time = s.time := rfl
@[simp] theorem State.clearRegisters_host : (State.clearRegisters s).host = s.host := rfl
@[simp] theorem State.clearRegisters_sess : (State.clearRegisters s).sess = s.sess := rfl
@[simp] theorem State.clearRegisters_rails : (State.clearRegisters s).rails = s.rails := rfl
@[simp] theorem State.clearRegisters_reads : (State.clearRegisters s).reads = s.reads := rfl
@[simp] theorem State.clearRegisters_faults : (State.clearRegisters s).faults = s.faults := rfl
@[simp] theorem State.clearRegisters_levels : (State.clearRegisters s).levels = s.levels := rfl
@[simp] theorem State.clearRegisters_draws : (State.clearRegisters s).draws = s.draws := rfl

/-! ### The changed fields -/

@[simp] theorem State.emit_trace (e : Event) : (State.emit e s).trace = e :: s.trace := rfl
@[simp] theorem State.raise_trace (e : Event) : (State.raise e s).trace = e :: s.trace := rfl
@[simp] theorem State.txStart_fv (v a : Byte) : (State.txStart v a s).fv = frame v := rfl
@[simp] theorem State.txStart_fa (v a : Byte) : (State.txStart v a s).fa = frame a := rfl
@[simp] theorem State.txStart_acc (v a : Byte) : (State.txStart v a s).acc = 0 := rfl
@[simp] theorem State.txStart_pos (v a : Byte) : (State.txStart v a s).pos = 10 := rfl
@[simp] theorem State.txStart_pollT (v a : Byte) : (State.txStart v a s).pollT = 0 := rfl
@[simp] theorem State.txStart_bs (v a : Byte) : (State.txStart v a s).bs = .poll := rfl
@[simp] theorem State.envTick_time : (State.envTick s).time = s.time.next := rfl
@[simp] theorem State.refuse_mark (r : Refusal) : (State.refuse r s).mark = s.mark.or (some r) := rfl
@[simp] theorem State.presentBusy_mark (w : CmdWord) :
    (State.presentBusy w s).mark = s.mark.or (some (.cmdWhileBusy w s.op s.step)) := rfl

/-- A run that answers a next state is unmarked, and the state is its own. -/
theorem State.unlessRefused_eq_next {s t : State} : s.unlessRefused = .next t ↔ s.mark = none ∧ s = t := by
  unfold State.unlessRefused
  cases s.mark <;> simp
@[simp] theorem State.presentBusy_trace (w : CmdWord) :
    (State.presentBusy w s).trace = .cmdWhileBusy w s.op s.step :: s.trace := rfl

/-- An update that keeps the trace keeps the event list. -/
theorem events_of_trace {s t : State} (h : t.trace = s.trace) : t.events = s.events := by simp [State.events, h]

@[simp] theorem State.emit_events (e : Event) : (State.emit e s).events = s.events ++ [e] := by simp [State.events]
@[simp] theorem State.raise_events (e : Event) : (State.raise e s).events = s.events ++ [e] := by simp [State.events]
@[simp] theorem State.presentBusy_events (w : CmdWord) :
    (State.presentBusy w s).events = s.events ++ [.cmdWhileBusy w s.op s.step] := by simp [State.events]

@[simp] theorem State.envTick_events : (State.envTick s).events = s.events := events_of_trace (by simp)
@[simp] theorem State.refuse_events (r : Refusal) : (State.refuse r s).events = s.events := events_of_trace (by simp)
@[simp] theorem State.txStart_events (v a : Byte) : (State.txStart v a s).events = s.events := events_of_trace (by simp)
@[simp] theorem State.targetFinish_events : (State.targetFinish s).events = s.events := events_of_trace (by simp)
@[simp] theorem State.sdoRead_events : (State.sdoRead s).events = s.events := events_of_trace (by simp)
@[simp] theorem State.targetBegin_events : (State.targetBegin s).events = s.events := events_of_trace (by simp)
@[simp] theorem State.startEntry_events : (State.startEntry s).events = s.events := events_of_trace (by simp)
@[simp] theorem State.sinkResult_events : (State.sinkResult s).events = s.events := events_of_trace (by simp)
@[simp] theorem State.lookAt_events (p : Port) : (State.lookAt p s).events = s.events := events_of_trace (by simp)
@[simp] theorem State.clearRegisters_events : (State.clearRegisters s).events = s.events := events_of_trace (by simp)

end Sys2Proof.Machine
end

