-- ==== Sys2Proof/Laws/Wire.lean ====
section
/-! SUPPORT. The frame, the samples and the events of bit positions. -/

namespace Sys2Proof.Machine

/-- Bit `i` of a frame is bit `i - 2` of its operand, for the eight operand bits, and 0 elsewhere (R49). -/
theorem frame_getLsbD (x : Byte) (i : Nat) : (frame x).getLsbD i = (decide (2 ≤ i) && x.getLsbD (i - 2)) := by
  unfold frame
  by_cases h : i < 11
  · by_cases h2 : 2 ≤ i <;> simp [h, h2] <;> omega
  · simp [h]
    intro
    apply BitVec.getLsbD_of_ge
    omega

@[simp] theorem frameByte_frame (x : Byte) : frameByte (frame x) = x := by
  apply BitVec.eq_of_getLsbD_eq
  intro i hi
  simp [frameByte, frame_getLsbD, hi]

@[simp] theorem frameBit_frame_last (x : Byte) : frameBit (frame x) 0 = false := by
  show (frame x).getLsbD 0 = false
  rw [frame_getLsbD]; rfl

theorem resultOf_append (bits : List Bool) (b : Bool) :
    (bits ++ [b]).foldl shiftIn 0 = shiftIn (bits.foldl shiftIn 0) b := by
  simp

theorem bitsEvents_append (lb : LineBind) (v a : Byte) (bits : List Bool) (b : Bool) :
    bitsEvents lb v a (bits ++ [b]) = bitsEvents lb v a bits ++ bitEvents lb v a bits.length b := by
  simp [bitsEvents, List.zipIdx_append]

@[simp] theorem bitsEvents_nil (lb : LineBind) (v a : Byte) : bitsEvents lb v a [] = [] := rfl

/-- A command's entries paired with one more record. -/
theorem zip_snoc {t : TxRecord} {e : RomEntry} : ∀ {ts : List TxRecord} {es : List RomEntry},
    es[ts.length]? = some e → es.zip (ts ++ [t]) = es.zip ts ++ [(e, t)]
  | [], [], h => by simp at h
  | [], _ :: _, h => by simpa using h
  | _ :: _, [], h => by simp at h
  | _ :: ts, _ :: es, h => by
    have := zip_snoc (t := t) (ts := ts) (es := es) (by simpa using h)
    simpa using this

/-- One more transaction of a command. -/
theorem seqEvents_snoc (lb : LineBind) (op : Op) {es : List RomEntry} {ts : List TxRecord} {t : TxRecord} {e : RomEntry}
    (h : es[ts.length]? = some e) :
    seqEvents lb op es (ts ++ [t]) = seqEvents lb op es ts ++ TxRecord.events lb op ts.length e.value e.addr t := by
  have hn : (es.zip ts).length = ts.length := by
    have := (List.getElem?_eq_some_iff.mp h).1
    simp; omega
  simp [seqEvents, zip_snoc h, List.zipIdx_append, hn]

theorem seqResults_snoc {es : List RomEntry} {ts : List TxRecord} {t : TxRecord} {e : RomEntry} (r : Results × Half)
    (h : es[ts.length]? = some e) :
    seqResults es (ts ++ [t]) r = e.sink.put t.result (seqResults es ts r) := by
  simp [seqResults, zip_snoc h]

/-- Every command's sequence has its length of R36 and R56. -/
theorem seqOf_length (cfg : Config) (op : Op) (v : Byte) (a : Half) : (seqOf cfg op v a).length = seqLen op := by
  cases op <;> rfl

theorem seqLen_le (op : Op) : seqLen op ≤ 9 := by cases op <;> decide

theorem seqLen_pos (op : Op) : 0 < seqLen op := by cases op <;> decide

/-! ### A command and the power-up -/

@[simp] theorem Rails.atCommand_vcc (r : Rails) : r.atCommand.vcc = r.vcc := rfl
@[simp] theorem Rails.atCommand_resetIsHigh (r : Rails) : r.atCommand.resetIsHigh = r.resetIsHigh := rfl
@[simp] theorem Rails.atCommand_responseIsInput (r : Rails) : r.atCommand.responseIsInput = r.responseIsInput := rfl

/-- A command leaves the power controls of a target that is up as they are. -/
theorem Rails.atCommand_of_powered {r : Rails} (h : r.powered = true) : r.atCommand = r := by
  obtain ⟨v, hi, inp, st⟩ := r
  cases st <;> simp_all [Rails.powered, Rails.atCommand]

/-- No command makes a power-up right. -/
@[simp] theorem Rails.atCommand_powered (r : Rails) : r.atCommand.powered = r.powered := by
  obtain ⟨v, hi, inp, st⟩ := r
  cases st with
  | stabilize us => by_cases h : 300 ≤ us <;> simp [Rails.powered, Rails.atCommand, h]
  | off => rfl
  | vccSettle us => rfl
  | resetAssert us => rfl
  | wrong => rfl

@[simp] theorem Rails.atCommand_ready (r : Rails) : r.atCommand.ready = r.ready := by simp [Rails.ready]

end Sys2Proof.Machine
end

