-- ==== Sys2Proof/Laws/Run.lean ====
section
/-! SUPPORT. What one cycle of a running command does, and from it what `runCommand` does: the whole trace and every result of
a command, as the transaction level of the spec gives them (R76, R77). -/

namespace Sys2Proof.Machine

/-- What the present transaction has done so far: `evs` are its events, `k` its index, `e` its ROM entry. -/
def TxPart (lb : LineBind) (op : Op) (k : Nat) (e : RomEntry) (s : State) (evs : List Event) : Prop :=
  match s.bs with
  | .idle => False
  | .poll => s.pos = 10 ∧ s.acc = 0 ∧ ∃ w, evs = List.replicate w (.pollSample false)
  | .drive => ∃ w en bits, bits.length ≤ 10 ∧ s.pos = BitVec.ofNat 4 (10 - bits.length) ∧
      s.acc = bits.foldl shiftIn 0 ∧ evs = pollEvents op k w en ++ bitsEvents lb e.value e.addr bits
  | .sample => ∃ w en bits, bits.length ≤ 10 ∧ s.pos = BitVec.ofNat 4 (10 - bits.length) ∧
      s.acc = bits.foldl shiftIn 0 ∧ (s.sii, s.sdi) = s.lineNow ∧
      evs = pollEvents op k w en ++ bitsEvents lb e.value e.addr bits ++ [driveEvent lb e.value e.addr bits.length]
  | .clkh => ∃ w en bits b, bits.length ≤ 10 ∧ s.pos = BitVec.ofNat 4 (10 - bits.length) ∧
      s.acc = (bits ++ [b]).foldl shiftIn 0 ∧ (s.sii, s.sdi) = s.lineNow ∧
      evs = pollEvents op k w en ++ bitsEvents lb e.value e.addr bits ++
        [driveEvent lb e.value e.addr bits.length, .sample s.pos b]
  | .clkl => ∃ w en bits b, bits.length ≤ 10 ∧ s.pos = BitVec.ofNat 4 (10 - bits.length) ∧
      s.acc = (bits ++ [b]).foldl shiftIn 0 ∧ (s.sii, s.sdi) = s.lineNow ∧
      evs = pollEvents op k w en ++ bitsEvents lb e.value e.addr bits ++
        [driveEvent lb e.value e.addr bits.length, .sample s.pos b, .clkHigh s.pos]

/-- A command accepted in `s₀` is in progress in `s`. -/
structure Running (s₀ : State) (op : Op) (argV : Byte) (argA : Half) (s : State) : Prop where
  busy : s.busy = true
  op_eq : s.op = op
  argV_eq : s.argV = argV
  argA_eq : s.argA = argA
  cfg_eq : s.cfg = s₀.cfg
  part : ∃ ts e evs, s.step = BitVec.ofNat 4 ts.length ∧ (seqOf s₀.cfg op argV argA)[ts.length]? = some e ∧
    (∀ x ∈ ts, x.bits.length = 11) ∧ s.fv = frame e.value ∧ s.fa = frame e.addr ∧
    s.events = s₀.events ++ [.cmdAccept op argV argA] ++ seqEvents s₀.cfg.lineBind op (seqOf s₀.cfg op argV argA) ts ++ evs ∧
    (s.res, s.sigacc) = seqResults (seqOf s₀.cfg op argV argA) ts (acceptResults op s₀) ∧
    TxPart s₀.cfg.lineBind op ts.length e s evs

/-- A command accepted in `s₀` is done in `t`. -/
def Finished (s₀ : State) (op : Op) (argV : Byte) (argA : Half) (t : State) : Prop :=
  t.AtRest ∧ ∃ ts, CommandRun op argV argA s₀ t ts

variable {s₀ s : State} {op : Op} {argV : Byte} {argA : Half}

theorem Running.seq_eq (h : Running s₀ op argV argA s) : s.seq = seqOf s₀.cfg op argV argA := by
  simp [State.seq, h.op_eq, h.argV_eq, h.argA_eq, h.cfg_eq]

/-- The index of a ROM entry fits the 4-bit `step`. -/
theorem step_toNat {n : Nat} {e : RomEntry} (h : (seqOf s₀.cfg op argV argA)[n]? = some e) :
    (BitVec.ofNat 4 n).toNat = n ∧ n < seqLen op := by
  have h1 := (List.getElem?_eq_some_iff.mp h).1
  have h2 := seqLen_le op
  rw [seqOf_length] at h1
  exact ⟨by simp; omega, h1⟩

theorem Running.ne_idle (h : Running s₀ op argV argA s) : s.bs ≠ .idle := by
  obtain ⟨ts, e, evs, -, -, -, -, -, -, -, hp⟩ := h.part
  intro hb
  simp [TxPart, hb] at hp

/-- What a micro-step inside a transaction keeps. -/
structure SameCommand (s t : State) : Prop where
  busy : t.busy = s.busy
  op : t.op = s.op
  argV : t.argV = s.argV
  argA : t.argA = s.argA
  cfg : t.cfg = s.cfg
  step : t.step = s.step
  fv : t.fv = s.fv
  fa : t.fa = s.fa
  res : t.res = s.res
  sigacc : t.sigacc = s.sigacc

/-- A micro-step inside a transaction goes on with the command when it goes on with the transaction. -/
theorem Running.within {t : State} (h : Running s₀ op argV argA s) (k : SameCommand s t) (new : List Event)
    (hev : t.events = s.events ++ new)
    (hp : ∀ n e evs, s.step = BitVec.ofNat 4 n → s.fv = frame e.value → s.fa = frame e.addr →
      TxPart s.cfg.lineBind s.op n e s evs → TxPart s.cfg.lineBind s.op n e t (evs ++ new)) :
    Running s₀ op argV argA t := by
  obtain ⟨ts, e, evs, h1, h2, h3, h4, h5, h6, h7, h8⟩ := h.part
  refine ⟨k.busy.trans h.busy, k.op.trans h.op_eq, k.argV.trans h.argV_eq, k.argA.trans h.argA_eq,
    k.cfg.trans h.cfg_eq, ts, e, evs ++ new, k.step.trans h1, h2, h3, k.fv.trans h4, k.fa.trans h5, ?_, ?_, ?_⟩
  · simp [hev, h6]
  · rw [k.res, k.sigacc, h7]
  · have := hp ts.length e evs h1 h4 h5
    rw [h.cfg_eq, h.op_eq] at this
    exact this h8

/-- The poll micro-step keeps the command. -/
theorem pollStep_same (tick : Bool) : SameCommand s (s.pollStep tick) := by
  constructor <;> simp

/-- The events of a poll micro-step (R69). -/
theorem pollStep_events (tick : Bool) :
    (s.pollStep tick).events = s.events ++ [.pollSample s.sdo] ++
      (if s.sdo then [.pollExit .ready]
       else if s.cfg.tPoll ≤ s.pollT then [.pollExit .timeout, .pollTimeout s.op s.step] else []) := by
  unfold State.pollStep State.pollDecide
  cases tick <;> cases s.sdo <;> by_cases ht : s.cfg.tPoll ≤ s.pollT <;> simp [State.events, ht]

/-- The phase after a poll micro-step (R69). -/
theorem pollStep_bs (hb : s.bs = .poll) (tick : Bool) :
    (s.pollStep tick).bs = if s.sdo = true ∨ s.cfg.tPoll ≤ s.pollT then .drive else .poll := by
  unfold State.pollStep State.pollDecide
  cases tick <;> cases s.sdo <;> by_cases ht : s.cfg.tPoll ≤ s.pollT <;> simp [ht, hb]

/-- The poll micro-step goes on with the command. -/
theorem Running.poll (h : Running s₀ op argV argA s) (hb : s.bs = .poll) (tick : Bool) :
    Running s₀ op argV argA (s.pollStep tick) := by
  refine h.within (pollStep_same tick) _ (by rw [pollStep_events, List.append_assoc]) ?_
  intro n e evs hn _ _ hp
  simp only [TxPart, hb] at hp
  obtain ⟨hpos, hacc, w, rfl⟩ := hp
  have hbs := pollStep_bs hb tick
  by_cases hd : s.sdo = true ∨ s.cfg.tPoll ≤ s.pollT
  · rw [if_pos hd] at hbs
    simp only [TxPart, hbs, State.pollStep_pos, State.pollStep_acc, hpos, hacc]
    refine ⟨w, if s.sdo then .ready else .timeout, [], by simp, by simp, by simp, ?_⟩
    cases hs : s.sdo
    · have ht : s.cfg.tPoll ≤ s.pollT := by simpa [hs] using hd
      simp [ht, pollEvents, hn]
    · simp [pollEvents]
  · rw [if_neg hd] at hbs
    simp only [TxPart, hbs, State.pollStep_pos, State.pollStep_acc, hpos, hacc]
    simp only [not_or, Bool.not_eq_true] at hd
    exact ⟨trivial, trivial, w + 1, by simp [hd.1, hd.2, List.replicate_succ']⟩

/-- The drive micro-step goes on with the command. -/
theorem Running.drive (h : Running s₀ op argV argA s) (hb : s.bs = .drive) : Running s₀ op argV argA s.driveStep := by
  refine h.within (by constructor <;> simp [State.driveStep])
    [.drive s.pos (s.lineNow).1 (s.lineNow).2] (by simp [State.driveStep, State.events, State.lineNow]) ?_
  intro n e evs _ hv ha hp
  simp only [TxPart, hb] at hp
  obtain ⟨w, en, bits, h1, h2, h3, rfl⟩ := hp
  simp only [TxPart, State.driveStep]
  refine ⟨w, en, bits, h1, by simpa using h2, by simpa using h3, by simp [State.lineNow], ?_⟩
  simp [driveEvent, State.lineNow, h2, hv, ha]

/-- The sample micro-step goes on with the command. -/
theorem Running.sample (h : Running s₀ op argV argA s) (hb : s.bs = .sample) :
    Running s₀ op argV argA s.sampleStep := by
  refine h.within (by constructor <;> simp [State.sampleStep])
    [.sample s.pos s.sdo] (by simp [State.sampleStep, State.events]) ?_
  intro n e evs _ hv ha hp
  simp only [TxPart, hb] at hp
  obtain ⟨w, en, bits, h1, h2, h3, h4, rfl⟩ := hp
  simp only [TxPart, State.sampleStep]
  exact ⟨w, en, bits, s.sdo, h1, by simpa using h2, by simp [h3], by simpa [State.lineNow] using h4, by simp⟩

/-- The clock-high micro-step goes on with the command. -/
theorem Running.clkHigh (h : Running s₀ op argV argA s) (hb : s.bs = .clkh) :
    Running s₀ op argV argA s.clkHighStep := by
  refine h.within (by constructor <;> simp [State.clkHighStep])
    [.clkHigh s.pos] (by simp [State.clkHighStep, State.events]) ?_
  intro n e evs _ hv ha hp
  simp only [TxPart, hb] at hp
  obtain ⟨w, en, bits, b, h1, h2, h3, h4, rfl⟩ := hp
  simp only [TxPart, State.clkHighStep]
  exact ⟨w, en, bits, b, h1, by simpa using h2, by simpa using h3, by simpa [State.lineNow] using h4, by simp⟩

/-- The bit position counts down with the samples taken. -/
theorem pos_pred {n : Nat} (h : n ≤ 10) : (BitVec.ofNat 4 (10 - n) = 0 ↔ n = 10) ∧
    (n < 10 → BitVec.ofNat 4 (10 - n) - 1 = BitVec.ofNat 4 (10 - (n + 1))) := by
  interval_cases n <;> decide

/-- The clock-low micro-step of a bit position other than the last goes on with the command. -/
theorem Running.clkLow (h : Running s₀ op argV argA s) (hb : s.bs = .clkl) (hpos : s.pos ≠ 0) :
    Running s₀ op argV argA s.clkLowStep := by
  have he : s.clkLowStep = { s.emit (.clkLow s.pos) with sci := false, pos := s.pos - 1, bs := .drive } := by
    unfold State.clkLowStep; exact if_neg hpos
  rw [he]
  refine h.within (by constructor <;> simp) [.clkLow s.pos] (by simp [State.events]) ?_
  intro n e evs _ hv ha hp
  simp only [TxPart, hb] at hp
  obtain ⟨w, en, bits, b, h1, h2, h3, h4, rfl⟩ := hp
  have hp := pos_pred h1
  have hlt : bits.length < 10 := by
    rcases Nat.lt_or_ge bits.length 10 with hl | hl
    · exact hl
    · exact absurd (h2.trans (hp.1.mpr (by omega))) hpos
  simp only [TxPart]
  refine ⟨w, en, bits ++ [b], by simp; omega, ?_, h3, ?_⟩
  · rw [h2, List.length_append, List.length_singleton]
    exact hp.2 hlt
  · simp [bitsEvents_append, bitEvents, h2]

/-- The last clock-low micro-step: the transaction ends and the sequencer writes its result (R75, R76 first half). -/
def State.txClosed (s : State) : State :=
  ({ ({ s.emit (.clkLow s.pos) with sci := false } : State).targetFinish.emit
      (.txDone (frameByte s.fv) (frameByte s.fa) (frameByte s.acc)) with
      rx := frameByte s.acc, bs := .idle }).sinkResult

theorem clkLowStep_last (hpos : s.pos = 0) : s.clkLowStep = s.txClosed.sequence := by
  unfold State.clkLowStep; exact if_pos hpos

/-- The last clock-low micro-step goes on with the command's next transaction, or finishes it. -/
theorem Running.txEnd (h : Running s₀ op argV argA s) (hb : s.bs = .clkl) (hpos : s.pos = 0) :
    Running s₀ op argV argA s.clkLowStep ∨ Finished s₀ op argV argA s.clkLowStep := by
  obtain ⟨ts, e, evs, h1, h2, h3, h4, h5, h6, h7, hp⟩ := h.part
  simp only [TxPart, hb] at hp
  obtain ⟨w, en, bits, b, b1, b2, b3, b4, rfl⟩ := hp
  obtain ⟨hst, hlt⟩ := step_toNat h2
  have hn : bits.length = 10 := by
    have := (pos_pred b1).1.mp (b2.symm.trans hpos)
    omega
  -- the record of the transaction that ends
  let rec' : TxRecord := ⟨w, en, bits ++ [b]⟩
  have hrec : rec'.bits.length = 11 := by simp [rec', hn]
  have hrx : frameByte s.acc = rec'.result := by rw [b3]; rfl
  have hev : s.txClosed.events = s₀.events ++ [.cmdAccept op argV argA] ++
      seqEvents s₀.cfg.lineBind op (seqOf s₀.cfg op argV argA) (ts ++ [rec']) := by
    rw [seqEvents_snoc _ _ h2]
    have : s.txClosed.events = s.events ++ [.clkLow s.pos, .txDone e.value e.addr rec'.result] := by
      simp [State.txClosed, State.events, State.sinkResult_trace, h4, h5, hrx]
    rw [this, h6]
    simp [TxRecord.events, rec', bitsEvents_append, bitEvents, b2]
  have hseq : (({ ({ s.emit (.clkLow s.pos) with sci := false } : State).targetFinish.emit
      (.txDone (frameByte s.fv) (frameByte s.fa) (frameByte s.acc)) with
      rx := frameByte s.acc, bs := .idle }) : State).seq = seqOf s₀.cfg op argV argA := h.seq_eq
  have hres : (s.txClosed.res, s.txClosed.sigacc) =
      seqResults (seqOf s₀.cfg op argV argA) (ts ++ [rec']) (acceptResults op s₀) := by
    rw [seqResults_snoc _ h2, ← h7, ← hrx]
    unfold State.txClosed State.sinkResult
    rw [hseq]
    simp [h1, hst, h2]
  have hseq' : s.txClosed.seq = seqOf s₀.cfg op argV argA := by
    rw [← hseq]; simp [State.txClosed, State.seq]
  have hstep' : s.txClosed.step = BitVec.ofNat 4 ts.length := by simp [State.txClosed, h1]
  rw [clkLowStep_last hpos]
  unfold State.sequence
  rw [hseq', hstep', hst]
  by_cases hm : ts.length + 1 < (seqOf s₀.cfg op argV argA).length
  · left
    rw [if_pos hm]
    have h2' : (seqOf s₀.cfg op argV argA)[(ts ++ [rec']).length]? = some (seqOf s₀.cfg op argV argA)[ts.length + 1] := by
      simp [hm]
    have hst' := (step_toNat h2').1
    have hs1 : BitVec.ofNat 4 ts.length + 1 = BitVec.ofNat 4 (ts ++ [rec']).length := by
      simp [BitVec.ofNat_add]
    have hstart : State.startEntry { s.txClosed with step := BitVec.ofNat 4 ts.length + 1 } =
        State.txStart (seqOf s₀.cfg op argV argA)[ts.length + 1].value (seqOf s₀.cfg op argV argA)[ts.length + 1].addr
          { s.txClosed with step := BitVec.ofNat 4 ts.length + 1 } := by
      unfold State.startEntry
      have : State.seq { s.txClosed with step := BitVec.ofNat 4 ts.length + 1 } = seqOf s₀.cfg op argV argA := hseq'
      rw [this]
      simp only [hs1, hst', h2']
    rw [hstart]
    refine ⟨?_, ?_, ?_, ?_, ?_, ts ++ [rec'], _, [], ?_, h2', ?_, rfl, rfl, ?_, ?_, ?_⟩
    · simp [State.txClosed, h.busy]
    · simp [State.txClosed, h.op_eq]
    · simp [State.txClosed, h.argV_eq]
    · simp [State.txClosed, h.argA_eq]
    · simp [State.txClosed, h.cfg_eq]
    · simpa using hs1
    · intro x hx
      rcases List.mem_append.mp hx with hx | hx
      · exact h3 x hx
      · rw [List.mem_singleton.mp hx]; exact hrec
    · rw [List.append_nil]; exact hev
    · exact hres
    · exact ⟨rfl, rfl, 0, rfl⟩
  · right
    rw [if_neg hm]
    have hlen : ts.length + 1 = (seqOf s₀.cfg op argV argA).length := by
      rw [seqOf_length] at hm ⊢; omega
    have hop : s.txClosed.op = op := by simp [State.txClosed, h.op_eq]
    refine ⟨⟨rfl, by simp [State.txClosed], ?_, ?_, by simp [State.txClosed]⟩, ts ++ [rec'], ?_, ?_, ?_, ?_, ?_, ?_, ?_⟩
    · have : s.sii = false := by
        have := congrArg Prod.fst b4
        simp only [State.lineNow, hpos, h4, h5, frameBit_frame_last] at this
        rw [this]; cases s.cfg.lineBind <;> rfl
      simpa [State.txClosed] using this
    · have : s.sdi = false := by
        have := congrArg Prod.snd b4
        simp only [State.lineNow, hpos, h4, h5, frameBit_frame_last] at this
        rw [this]; cases s.cfg.lineBind <;> rfl
      simpa [State.txClosed] using this
    · simpa using hlen
    · intro x hx
      rcases List.mem_append.mp hx with hx | hx
      · exact h3 x hx
      · rw [List.mem_singleton.mp hx]; exact hrec
    · rw [← hev, hop]; simp [State.events]
    · simp only [hop, hres]
    · exact congrArg Prod.snd hres
    · refine ⟨hop, ?_, ?_, ?_⟩
      · simp [State.txClosed, h.argV_eq]
      · simp [State.txClosed, h.argA_eq]
      · have : s.txClosed.step.toNat = ts.length := by rw [hstep', hst]
        simpa using this
    · simp [State.txClosed, hrx]

end Sys2Proof.Machine
end

