-- ==== Sys2Proof/Laws/Command.lean ====
section
/-! SUPPORT. What a whole command does: it ends within its budget (R78), it is the spec's sequence of transactions (R76, R77),
and it leaves everything outside the block alone. -/

namespace Sys2Proof.Machine

/-! ### What no micro-step touches -/

/-- What no cycle of a running command touches. -/
structure Untouched (s t : State) : Prop where
  cfg : t.cfg = s.cfg
  mark : t.mark = s.mark
  sess : t.sess = s.sess
  rails : t.rails = s.rails
  reads : t.reads = s.reads
  faults : t.faults = s.faults

/-- What a micro-step does not touch either: the host's list and the time source. -/
structure Outside (s t : State) : Prop extends Untouched s t where
  host : t.host = s.host
  time : t.time = s.time

theorem Outside.refl (s : State) : Outside s s := ⟨⟨rfl, rfl, rfl, rfl, rfl, rfl⟩, rfl, rfl⟩

theorem Untouched.trans {s t u : State} (h : Untouched s t) (k : Untouched t u) : Untouched s u :=
  ⟨k.cfg.trans h.cfg, k.mark.trans h.mark, k.sess.trans h.sess, k.rails.trans h.rails, k.reads.trans h.reads,
    k.faults.trans h.faults⟩

theorem sequence_outside (s : State) : Outside s s.sequence := by
  unfold State.sequence
  split <;> constructor <;> (try constructor) <;> simp

theorem txClosed_outside (s : State) : Outside s s.txClosed := by
  constructor <;> (try constructor) <;> simp [State.txClosed]

theorem Outside.trans {s t u : State} (h : Outside s t) (k : Outside t u) : Outside s u :=
  ⟨h.toUntouched.trans k.toUntouched, k.host.trans h.host, k.time.trans h.time⟩

theorem clkLowStep_outside (s : State) : Outside s s.clkLowStep := by
  by_cases h : s.pos = 0
  · rw [clkLowStep_last h]; exact (txClosed_outside s).trans (sequence_outside _)
  · unfold State.clkLowStep
    rw [if_neg h]
    constructor <;> (try constructor) <;> simp

/-- A micro-step touches nothing outside the block but the target. -/
theorem micro_outside (tick : Bool) (s : State) : Outside s (s.micro tick) := by
  unfold State.micro
  split
  · exact .refl s
  · constructor <;> (try constructor) <;> simp
  · constructor <;> (try constructor) <;> simp
  · constructor <;> (try constructor) <;> simp
  · constructor <;> (try constructor) <;> simp
  · exact clkLowStep_outside s

/-! ### The time source -/

theorem cyclesFor_mono : ∀ {j k : Nat} (t : TimeSource), j ≤ k → t.cyclesFor j ≤ t.cyclesFor k
  | 0, _, _, _ => by simp [TimeSource.cyclesFor]
  | j + 1, 0, _, h => by omega
  | j + 1, k + 1, t, h => by
    have hjk : j ≤ k := by omega
    have h1 := cyclesFor_mono t hjk
    have h2 := cyclesFor_mono t.reload hjk
    cases hr : t.rate <;> simp only [TimeSource.cyclesFor, hr] <;> omega

/-- One cycle uses up one of the cycles in which the ticks pass. -/
theorem cyclesFor_next {t : TimeSource} (hf : t.fair = true) (k : Nat) :
    t.cyclesFor (k + 1) = (if t.tick then t.next.cyclesFor k else t.next.cyclesFor (k + 1)) + 1 := by
  obtain ⟨r, w, c⟩ := t
  cases r with
  | stopped => simp [TimeSource.fair] at hf
  | every g =>
    cases w with
    | zero => simp [TimeSource.tick, TimeSource.next, TimeSource.cyclesFor]; omega
    | succ w =>
      simp [TimeSource.tick, TimeSource.next, TimeSource.cyclesFor, TimeSource.reload, TimeSource.gap]; omega
  | free =>
    cases w with
    | zero => simp [TimeSource.tick, TimeSource.next, TimeSource.cyclesFor]; omega
    | succ w =>
      simp [TimeSource.tick, TimeSource.next, TimeSource.cyclesFor, TimeSource.reload, TimeSource.gap]; omega

theorem fair_next {t : TimeSource} (hf : t.fair = true) : t.next.fair = true := by
  cases hr : t.rate <;> simp only [TimeSource.fair, hr] at hf <;>
    simp only [TimeSource.next, hr] <;> (try split) <;> simp_all [TimeSource.fair, TimeSource.reload]

/-! ### A quiet host -/

theorem hostPins_quiet : ∀ {h : List HostAct}, hostQuiet h = true →
    (hostPins h).1 = Pins.quiet ∧ hostQuiet (hostPins h).2 = true
  | [], _ => ⟨rfl, rfl⟩
  | .quiet :: _, h => ⟨rfl, h⟩
  | .rst :: _, h => by simp [hostQuiet] at h
  | .present _ :: _, h => by simp [hostQuiet] at h
  | .issue _ :: _, _ => ⟨rfl, rfl⟩
  | .read _ :: _, _ => ⟨rfl, rfl⟩
  | .request _ :: _, _ => ⟨rfl, rfl⟩
  | .power _ :: _, _ => ⟨rfl, rfl⟩

/-- An action that waits for an idle block stays where it is while the block is busy. -/
theorem hostPins_waiting {h : List HostAct} (hp : portActFirst h = false) : (hostPins h).2 = h := by
  cases h with
  | nil => rfl
  | cons a h => cases a <;> simp_all [portActFirst, hostPins]

/-- With a quiet host a cycle of a busy block is one micro-step, and the time source moves on. -/
theorem cycle_quiet {s : State} (hq : hostQuiet s.host = true) (hb : s.busy = true) :
    s.cycle = (State.micro s.time.tick { s with host := (hostPins s.host).2 }).envTick := by
  unfold State.cycle State.clk
  rw [(hostPins_quiet hq).1]
  simp [Pins.quiet, hb]

/-! ### The command goes on -/

variable {s₀ s : State} {op : Op} {argV : Byte} {argA : Half}

theorem Running.micro (h : Running s₀ op argV argA s) (tick : Bool) :
    Running s₀ op argV argA (s.micro tick) ∨ Finished s₀ op argV argA (s.micro tick) := by
  unfold State.micro
  cases hb : s.bs
  · exact absurd hb h.ne_idle
  · exact .inl (h.poll hb tick)
  · exact .inl (h.drive hb)
  · exact .inl (h.sample hb)
  · exact .inl (h.clkHigh hb)
  · by_cases hpos : s.pos = 0
    · exact h.txEnd hb hpos
    · exact .inl (h.clkLow hb hpos)

theorem Running.cycle (h : Running s₀ op argV argA s) (hq : hostQuiet s.host = true) :
    Running s₀ op argV argA s.cycle ∨ Finished s₀ op argV argA s.cycle := by
  rw [cycle_quiet hq h.busy]
  have h' : Running s₀ op argV argA { s with host := (hostPins s.host).2 } :=
    ⟨h.busy, h.op_eq, h.argV_eq, h.argA_eq, h.cfg_eq, h.part⟩
  rcases h'.micro s.time.tick with k | ⟨k, ts, c⟩
  · exact .inl ⟨k.busy, k.op_eq, k.argV_eq, k.argA_eq, k.cfg_eq, k.part⟩
  · exact .inr ⟨⟨k.busy, k.bs, k.sii, k.sdi, k.sci⟩, ts, c.records, c.samples, c.events, c.results, c.sigacc, c.latched, c.rx⟩

/-- Nothing outside the block changes in a quiet cycle, but for the host's list and the time source. -/
theorem cycle_outside (hq : hostQuiet s.host = true) (hb : s.busy = true) :
    Untouched s s.cycle ∧ s.cycle.time = s.time.next ∧ s.cycle.host = (hostPins s.host).2 := by
  rw [cycle_quiet hq hb]
  have h := micro_outside s.time.tick { s with host := (hostPins s.host).2 }
  refine ⟨⟨h.cfg, h.mark, h.sess, h.rails, h.reads, h.faults⟩, ?_, h.host⟩
  show (State.micro _ _).time.next = _
  rw [h.time]

/-! ### The budget -/

/-- The position of the bit in progress, from 10 down. -/
theorem Running.pos_poll (h : Running s₀ op argV argA s) (hb : s.bs = .poll) : s.pos = 10 := by
  obtain ⟨ts, e, evs, -, -, -, -, -, -, -, hp⟩ := h.part
  simp only [TxPart, hb] at hp
  exact hp.1

theorem Running.budget_pos (h : Running s₀ op argV argA s) : 1 ≤ s.budget := by
  have := h.ne_idle
  unfold State.budget State.txBudgetLeft
  cases hb : s.bs <;> simp_all <;> omega

theorem Running.step_lt (h : Running s₀ op argV argA s) : s.step.toNat < s.seq.length := by
  obtain ⟨ts, e, evs, h1, h2, -⟩ := h.part
  rw [h.seq_eq, h1, (step_toNat h2).1]
  exact (List.getElem?_eq_some_iff.mp h2).1

theorem Running.step_succ (h : Running s₀ op argV argA s) (hm : s.step.toNat + 1 < s.seq.length) :
    (s.step + 1).toNat = s.step.toNat + 1 := by
  have h2 := seqLen_le op
  rw [h.seq_eq, seqOf_length] at hm
  rw [BitVec.toNat_add]
  simp; omega

/-- Where the sequence has an entry at `step`, starting it is `tx_start` of its pair (R67). -/
theorem startEntry_eq {u : State} {e : RomEntry} (h : u.seq[u.step.toNat]? = some e) :
    u.startEntry = u.txStart e.value e.addr := by
  unfold State.startEntry
  rw [h]

/-- The budget at the start of a transaction. -/
theorem startEntry_budget {u : State} {e : RomEntry} (h : u.seq[u.step.toNat]? = some e) :
    u.startEntry.budget = u.cfg.tPoll + 46 + (u.seq.length - 1 - u.step.toNat) * (u.cfg.tPoll + 46) := by
  rw [startEntry_eq h]
  simp [State.budget, State.txBudgetLeft, Config.txBudget, State.seq]

/-- A micro-step uses up the budget: never more is left, and less if a tick passes. -/
theorem Running.budget_micro (h : Running s₀ op argV argA s) (tick : Bool) (hb' : (s.micro tick).busy = true) :
    (s.micro tick).budget + (if tick then 1 else 0) ≤ s.budget := by
  have hseq : ∀ t : State, SameCommand s t → t.seq = s.seq := fun t k => by
    simp [State.seq, k.op, k.argV, k.argA, k.cfg]
  have htick : (if tick then 1 else 0) ≤ 1 := by cases tick <;> simp
  cases hb : s.bs
  · exact absurd hb h.ne_idle
  · -- poll
    have hm : s.micro tick = s.pollStep tick := by simp [State.micro, hb]
    rw [hm]
    have hk := pollStep_same (s := s) tick
    have hbs := pollStep_bs hb tick
    unfold State.budget
    rw [hseq _ hk, hk.step, hk.cfg]
    by_cases hd : s.sdo = true ∨ s.cfg.tPoll ≤ s.pollT
    · rw [if_pos hd] at hbs
      simp only [State.txBudgetLeft, hbs, hb, State.pollStep_pos, h.pos_poll hb]
      have : (10 : Nibble).toNat = 10 := rfl
      rw [this]; omega
    · rw [if_neg hd] at hbs
      simp only [State.txBudgetLeft, hbs, hb, State.pollStep_cfg]
      simp only [not_or, Bool.not_eq_true] at hd
      have ht : (s.pollStep tick).pollT = s.pollT + (if tick then 1 else 0) := by
        unfold State.pollStep State.pollDecide
        cases tick <;> simp [hd.1, hd.2]
      rw [ht]; omega
  · -- drive
    have hm : s.micro tick = s.driveStep := by simp [State.micro, hb]
    rw [hm]
    simp only [State.budget, State.txBudgetLeft, hb, State.seq, State.driveStep_cfg, State.driveStep_op,
      State.driveStep_argV, State.driveStep_argA, State.driveStep_step, State.driveStep_pos]
    have : s.driveStep.bs = .sample := rfl
    simp only [this]; omega
  · have hm : s.micro tick = s.sampleStep := by simp [State.micro, hb]
    rw [hm]
    simp only [State.budget, State.txBudgetLeft, hb, State.seq, State.sampleStep_cfg, State.sampleStep_op,
      State.sampleStep_argV, State.sampleStep_argA, State.sampleStep_step, State.sampleStep_pos]
    have : s.sampleStep.bs = .clkh := rfl
    simp only [this]; omega
  · have hm : s.micro tick = s.clkHighStep := by simp [State.micro, hb]
    rw [hm]
    simp only [State.budget, State.txBudgetLeft, hb, State.seq, State.clkHighStep_cfg, State.clkHighStep_op,
      State.clkHighStep_argV, State.clkHighStep_argA, State.clkHighStep_step, State.clkHighStep_pos]
    have : s.clkHighStep.bs = .clkl := rfl
    simp only [this]; omega
  · have hm : s.micro tick = s.clkLowStep := by simp [State.micro, hb]
    rw [hm] at hb' ⊢
    by_cases hpos : s.pos = 0
    · rw [clkLowStep_last hpos] at hb' ⊢
      have hs : s.txClosed.seq = s.seq := by simp [State.txClosed, State.seq]
      have hst : s.txClosed.step = s.step := by simp [State.txClosed]
      have hc : s.txClosed.cfg = s.cfg := by simp [State.txClosed]
      unfold State.sequence at hb' ⊢
      rw [hs, hst] at hb' ⊢
      by_cases hm : s.step.toNat + 1 < s.seq.length
      · rw [if_pos hm]
        have hsucc := h.step_succ hm
        have hget : ({ s.txClosed with step := s.step + 1 } : State).seq[(s.step + 1).toNat]? =
            some (s.seq[s.step.toNat + 1]) := by
          have : ({ s.txClosed with step := s.step + 1 } : State).seq = s.seq := hs
          rw [this, hsucc, List.getElem?_eq_getElem hm]
        rw [startEntry_budget hget]
        have : ({ s.txClosed with step := s.step + 1 } : State).seq = s.seq := hs
        rw [this]
        simp only [State.budget, State.txBudgetLeft, hb, Config.txBudget, hc, hpos, hsucc]
        have h0 : (0 : Nibble).toNat = 0 := rfl
        have : s.seq.length - 1 - s.step.toNat = (s.seq.length - 1 - (s.step.toNat + 1)) + 1 := by omega
        rw [this, Nat.add_mul, h0]; omega
      · rw [if_neg hm] at hb'
        simp at hb'
    · have he : s.clkLowStep = { s.emit (.clkLow s.pos) with sci := false, pos := s.pos - 1, bs := .drive } := by
        unfold State.clkLowStep; exact if_neg hpos
      rw [he]
      have hp : (s.pos - 1).toNat = s.pos.toNat - 1 ∧ 1 ≤ s.pos.toNat := by
        have : s.pos.toNat ≠ 0 := fun h0 => hpos (BitVec.eq_of_toNat_eq (by simpa using h0))
        have h16 := s.pos.isLt
        constructor
        · rw [BitVec.toNat_sub]; simp; omega
        · omega
      simp only [State.budget, State.txBudgetLeft, hb, State.seq, State.emit_cfg, State.emit_op, State.emit_argV,
        State.emit_argA, State.emit_step, hp.1]
      omega

/-- A quiet cycle that does not end the command brings its end one cycle nearer. -/
theorem Running.nearer (h : Running s₀ op argV argA s) (hq : hostQuiet s.host = true) (hf : s.time.fair = true)
    (hb' : s.cycle.busy = true) :
    s.cycle.time.cyclesFor s.cycle.budget + 1 ≤ s.time.cyclesFor s.budget := by
  have hout := cycle_outside hq h.busy
  rw [hout.2.1]
  have hpos := h.budget_pos
  have hB : s.cycle.budget + (if s.time.tick then 1 else 0) ≤ s.budget := by
    rw [cycle_quiet hq h.busy] at hb' ⊢
    have h' : Running s₀ op argV argA { s with host := (hostPins s.host).2 } :=
      ⟨h.busy, h.op_eq, h.argV_eq, h.argA_eq, h.cfg_eq, h.part⟩
    exact h'.budget_micro s.time.tick hb'
  obtain ⟨k, hk⟩ : ∃ k, s.budget = k + 1 := ⟨s.budget - 1, by omega⟩
  rw [hk, cyclesFor_next hf]
  rw [hk] at hB
  split
  · rename_i ht
    rw [if_pos ht] at hB
    have := cyclesFor_mono s.time.next (show s.cycle.budget ≤ k by omega)
    omega
  · rename_i ht
    rw [if_neg ht] at hB
    have := cyclesFor_mono s.time.next (show s.cycle.budget ≤ k + 1 by omega)
    omega

theorem runFuel_idle (hb : s.busy = false) : ∀ n, State.runFuel n s = s
  | 0 => rfl
  | n + 1 => by simp [State.runFuel, hb]

/-- With enough cycles a running command is finished (R78). -/
theorem Running.finishes : ∀ {n : Nat} {s : State}, Running s₀ op argV argA s → hostQuiet s.host = true →
    s.time.fair = true → s.time.cyclesFor s.budget ≤ n →
    Finished s₀ op argV argA (State.runFuel n s) ∧ Untouched s (State.runFuel n s) ∧
      hostQuiet (State.runFuel n s).host = true ∧ (State.runFuel n s).time.fair = true ∧
      (portActFirst s.host = false → (State.runFuel n s).host = s.host)
  | 0, s, h, _, hf, hn => by
    obtain ⟨k, hk⟩ : ∃ k, s.budget = k + 1 := ⟨s.budget - 1, by have := h.budget_pos; omega⟩
    rw [hk, cyclesFor_next hf] at hn
    omega
  | n + 1, s, h, hq, hf, hn => by
    obtain ⟨hout, htime, hhost⟩ := cycle_outside hq h.busy
    have hq' : hostQuiet s.cycle.host = true := hhost ▸ (hostPins_quiet hq).2
    have hf' : s.cycle.time.fair = true := htime ▸ fair_next hf
    have he : State.runFuel (n + 1) s = State.runFuel n s.cycle := by simp [State.runFuel, h.busy]
    rw [he]
    rcases h.cycle hq with k | k
    · have := h.nearer hq hf k.busy
      obtain ⟨a, b, c, d, e⟩ := k.finishes (n := n) hq' hf' (by omega)
      exact ⟨a, hout.trans b, c, d, fun hp => by rw [e (by rw [hhost, hostPins_waiting hp, hp]), hhost, hostPins_waiting hp]⟩
    · rw [runFuel_idle k.1.busy]
      exact ⟨k, hout, hq', hf', fun hp => by rw [hhost, hostPins_waiting hp]⟩

/-- What acceptance does outside the block: a power-up that is still going on is wrong from here on (R124). -/
theorem accept_outside (s : State) (op : Op) (argV : Byte) (argA : Half) :
    Outside { s with rails := s.rails.atCommand } (s.accept op argV argA) := by
  constructor <;> (try constructor) <;> simp [State.accept]

/-- An accepted command is running. -/
theorem accept_running (s : State) (op : Op) (argV : Byte) (argA : Half) :
    Running s op argV argA (s.accept op argV argA).envTick := by
  have hpos : 0 < (seqOf s.cfg op argV argA).length := by rw [seqOf_length]; exact seqLen_pos op
  have h2 := List.getElem?_eq_getElem hpos
  have hstart : s.accept op argV argA =
      State.txStart (seqOf s.cfg op argV argA)[0].value (seqOf s.cfg op argV argA)[0].addr
        ({ s with
            op := op, argV := argV, argA := argA, step := 0, busy := true,
            sigacc := if op = Op.readSig then 0 else s.sigacc, rails := s.rails.atCommand }.emit (.cmdAccept op argV argA)) :=
    startEntry_eq h2
  rw [hstart]
  refine ⟨rfl, rfl, rfl, rfl, rfl, [], _, [], rfl, h2, by simp, rfl, rfl, ?_, by simp [seqResults, acceptResults], rfl, rfl, 0, rfl⟩
  simp [State.events, seqEvents]

/-- What every command does from a state that is ready for it: it completes, with the transactions of its sequence, the
results the sinks name, the block at rest, and nothing outside the block touched (R53, R76, R77, R78). -/
theorem runCommand_completes (op : Op) (argV : Byte) (argA : Half) {s : State} (h : s.Ready) :
    ∃ t ts, runCommand op argV argA s = .next t ∧ t.AtRest ∧ CommandRun op argV argA s t ts ∧ SameOutside s t ∧
      hostQuiet t.host = true ∧ t.time.fair = true ∧ (portActFirst s.host = false → t.host = s.host) := by
  have hr := accept_running s op argV argA
  have hacc := accept_outside s op argV argA
  have hq : hostQuiet (s.accept op argV argA).envTick.host = true := by
    rw [State.envTick_host, hacc.host]; exact h.quiet
  have hf : (s.accept op argV argA).envTick.time.fair = true := by
    rw [State.envTick_time, hacc.time]; exact fair_next h.fair
  obtain ⟨⟨a, ts, b⟩, c, d, e, f⟩ := hr.finishes hq hf (Nat.le_refl _)
  refine ⟨_, ts, ?_, a, b, ?_, d, e, fun hp => ?_⟩
  · unfold runCommand
    rw [if_neg (by rw [h.idle]; decide), State.unlessRefused_eq_next]
    exact ⟨(c.mark.trans hacc.mark).trans h.unmarked, rfl⟩
  rotate_left
  · rw [State.envTick_host, hacc.host] at f
    exact f hp
  exact ⟨c.cfg.trans hacc.cfg, c.mark.trans hacc.mark, c.sess.trans hacc.sess, c.rails.trans hacc.rails,
    c.reads.trans hacc.reads, c.faults.trans hacc.faults⟩

/-- What a command answers: a next state exactly if the block is idle and no word refuses the run on the way (R111, R112), and
that state is the one the cycles lead to. -/
theorem runCommand_eq_next {op : Op} {argV : Byte} {argA : Half} {s t : State} :
    runCommand op argV argA s = .next t ↔
      s.busy = false ∧ t = State.runToIdle (s.accept op argV argA).envTick ∧ t.mark = none := by
  unfold runCommand
  cases s.busy <;> simp [State.unlessRefused_eq_next]
  constructor
  · rintro ⟨h, rfl⟩; exact ⟨rfl, h⟩
  · rintro ⟨rfl, h⟩; exact ⟨h, rfl⟩

end Sys2Proof.Machine
end

