-- ==== Sys2Proof/Laws/Decode.lean ====
section
/-! SUPPORT. The fields of a command word. -/

namespace Sys2Proof

/-- Each bit of a word of four fields. -/
theorem fields_getLsbD (z : BitVec 5) (o : BitVec 3) (a : Half) (v : Byte) (i : Nat) :
    BitVec.getLsbD (w := 32) (z ++ o ++ a ++ v) i =
      if i < 8 then v.getLsbD i else if i < 24 then a.getLsbD (i - 8) else if i < 27 then o.getLsbD (i - 24)
      else z.getLsbD (i - 27) := by
  show BitVec.getLsbD (w := 5 + 3 + 16 + 8) (z ++ o ++ a ++ v) i = _
  rw [BitVec.getLsbD_append]
  by_cases h1 : i < 8
  · simp [h1]
  · rw [show BitVec.getLsbD (w := 5 + 3 + 16) (z ++ o ++ a) (i - 8) = _ from BitVec.getLsbD_append]
    by_cases h2 : i < 24
    · simp [h1, h2, show i - 8 < 16 by omega]
    · rw [show BitVec.getLsbD (w := 5 + 3) (z ++ o) (i - 8 - 16) = _ from BitVec.getLsbD_append]
      by_cases h3 : i < 27
      · simp [h1, h2, h3, show ¬ (i - 8 < 16) by omega, show i - 8 - 16 = i - 24 by omega]; omega
      · simp [h1, h2, h3, show ¬ (i - 8 < 16) by omega, show ¬ (i - 8 - 16 < 3) by omega,
          show i - 8 - 16 - 3 = i - 27 by omega]

/-- The fields of a word of four fields. -/
theorem fields_of_word (z : BitVec 5) (o : BitVec 3) (a : Half) (v : Byte) :
    fieldSbz (z ++ o ++ a ++ v) = z ∧ fieldOp (z ++ o ++ a ++ v) = o ∧ fieldA16 (z ++ o ++ a ++ v) = a ∧
      fieldV8 (z ++ o ++ a ++ v) = v := by
  refine ⟨?_, ?_, ?_, ?_⟩ <;>
    (apply BitVec.eq_of_getLsbD_eq; intro i hi;
     simp only [fieldSbz, fieldOp, fieldA16, fieldV8, BitVec.getLsbD_extractLsb', fields_getLsbD, hi, decide_true, Bool.true_and])
  · rw [if_neg (by omega), if_neg (by omega), if_neg (by omega), show 27 + i - 27 = i by omega]
  · rw [if_neg (by omega), if_neg (by omega), if_pos (by omega), show 24 + i - 24 = i by omega]
  · rw [if_neg (by omega), if_pos (by omega), show 8 + i - 8 = i by omega]
  · rw [if_pos (by omega), show 0 + i = i by omega]

@[simp] theorem commandWord_sbz (op : Op) (a : Half) (v : Byte) : fieldSbz (commandWord op a v) = 0 :=
  (fields_of_word 0 op.code a v).1

@[simp] theorem commandWord_op (op : Op) (a : Half) (v : Byte) : fieldOp (commandWord op a v) = op.code :=
  (fields_of_word 0 op.code a v).2.1

@[simp] theorem commandWord_a16 (op : Op) (a : Half) (v : Byte) : fieldA16 (commandWord op a v) = a :=
  (fields_of_word 0 op.code a v).2.2.1

@[simp] theorem commandWord_v8 (op : Op) (a : Half) (v : Byte) : fieldV8 (commandWord op a v) = v :=
  (fields_of_word 0 op.code a v).2.2.2

/-- A word is the word of its four fields. -/
theorem word_of_fields (w : CmdWord) : w = fieldSbz w ++ fieldOp w ++ fieldA16 w ++ fieldV8 w := by
  apply BitVec.eq_of_getLsbD_eq
  intro i hi
  rw [fields_getLsbD]
  simp only [fieldSbz, fieldOp, fieldA16, fieldV8, BitVec.getLsbD_extractLsb']
  by_cases h1 : i < 8
  · simp [h1]
  · by_cases h2 : i < 24
    · simp [h1, h2, show i - 8 < 16 by omega, show 8 + (i - 8) = i by omega]
    · by_cases h3 : i < 27
      · simp [h1, h2, h3, show i - 24 < 3 by omega, show 24 + (i - 24) = i by omega]
      · simp [h1, h2, h3, show i - 27 < 5 by omega, show 27 + (i - 27) = i by omega]

@[simp] theorem Op.ofCode_code (op : Op) : Op.ofCode op.code = some op := by cases op <;> rfl

/-- The codes the `OP` field names (R52). -/
theorem Op.ofCode_eq_some {c : BitVec 3} {op : Op} (h : Op.ofCode c = some op) : c = op.code := by
  revert c
  cases op <;> decide

/-- Each bit of a half of two bytes. -/
theorem bytes_getLsbD (h l : Byte) (i : Nat) :
    BitVec.getLsbD (w := 16) (h ++ l) i = if i < 8 then l.getLsbD i else h.getLsbD (i - 8) := by
  show BitVec.getLsbD (w := 8 + 8) (h ++ l) i = _
  rw [BitVec.getLsbD_append]

@[simp] theorem lowByte_append (h l : Byte) : lowByte (h ++ l) = l := by
  apply BitVec.eq_of_getLsbD_eq
  intro i hi
  simp [lowByte, bytes_getLsbD, hi]

@[simp] theorem highByte_append (h l : Byte) : highByte (h ++ l) = h := by
  apply BitVec.eq_of_getLsbD_eq
  intro i hi
  simp [highByte, bytes_getLsbD, hi]

/-- A half is its two bytes. -/
theorem half_of_bytes (x : Half) : x = highByte x ++ lowByte x := by
  apply BitVec.eq_of_getLsbD_eq
  intro i hi
  rw [bytes_getLsbD]
  by_cases h : i < 8
  · simp [lowByte, h]
  · simp [highByte, h, show i - 8 < 8 by omega, show 8 + (i - 8) = i by omega]

end Sys2Proof
end

