-- ==== Sys2Proof/Laws/PerInstr.lean ====
section
/-! SUPPORT. For each instruction: the four fields of its word are the ones of its encoding (`30_encoding.md` R51, R52). -/

namespace Sys2Proof.Laws.Fields

/-- The fields of the instruction's word. -/
def Statement (i : Instr) : Prop :=
  fieldSbz (encode i) = 0 ∧ fieldOp (encode i) = i.op.code ∧ fieldA16 (encode i) = i.a16 ∧ fieldV8 (encode i) = i.v8

/-- The fields of any instruction's word, once. -/
theorem fields (i : Instr) : Statement i := by simp [Statement, encode]

theorem transact (v a : Byte) : Statement (.transact v a) := fields _
theorem rdsig : Statement .rdsig := fields _
theorem rdfuses : Statement .rdfuses := fields _
theorem wrfuse (addr : Half) (value : Byte) : Statement (.wrfuse addr value) := fields _
theorem rdlock : Statement .rdlock := fields _
theorem erase : Statement .erase := fields _
theorem wrlfuse (value : Byte) : Statement (.wrlfuse value) := fields _
theorem wrhfuse (value : Byte) : Statement (.wrhfuse value) := fields _
theorem wrefuse (value : Byte) : Statement (.wrefuse value) := fields _

end Sys2Proof.Laws.Fields
end

