-- ==== Sys2Proof/Laws/Port.lean ====
section
/-! SUPPORT. What a host's look at a port does (R28), and what each operation on the reference target leaves of `sync` (R48)
and of `lost` (I4). -/

namespace Sys2Proof.Machine

/-! ### The ports -/

variable {s t : State} {p : Port} {x : Half}

/-- A port's value depends on `busy` and the result registers alone (R17). -/
theorem State.portValue_congr (hb : t.busy = s.busy) (hr : t.res = s.res) : t.portValue p = s.portValue p := by
  cases p <;> simp only [State.portValue, hb, hr]

theorem State.portRead_of_value (h : s.portValue p = some x) : s.portRead p = x := by rw [State.portRead, h]

theorem State.portRead_of_none (h : s.portValue p = none) :
    s.portRead p = ((Config.freePort s.draws).setWidth p.width).setWidth 16 := by rw [State.portRead, h]

theorem State.lookAt_of_value (h : s.portValue p = some x) : s.lookAt p = s := by rw [State.lookAt, h]

theorem State.lookAt_of_none (h : s.portValue p = none) :
    s.lookAt p = { s with faults := p :: s.faults, draws := s.draws + 1 } := by rw [State.lookAt, h]

/-! ### The reference target's `sync` -/

variable (r : RefTarget)

@[simp] theorem RefTarget.onTick_sync : r.onTick.sync = r.sync := rfl
@[simp] theorem RefTarget.scramble_sync (n : Nat) : (r.scramble n).sync = r.sync := rfl
@[simp] theorem RefTarget.initial_sync (n : Nat) : (r.initial n).sync = r.sync := rfl
@[simp] theorem RefTarget.abort_sync (n : Nat) : (r.abort n).sync = r.sync := rfl
@[simp] theorem RefTarget.begin_sync (p : Bool) : (r.begin p).sync = (r.sync && r.busyLeft == 0) := rfl

@[simp] theorem RefTarget.powerDown_sync (n : Nat) : (r.powerDown n).sync = r.sync := by
  unfold RefTarget.powerDown; split <;> rfl

@[simp] theorem RefTarget.onPower_sync (a : PowerAct) (stage : PowerStage) (n : Nat) : (r.onPower a stage n).sync = r.sync := by
  unfold RefTarget.onPower; split <;> [skip; split] <;> simp

@[simp] theorem RefTarget.startBusy_sync (n : Nat) : (r.startBusy n).sync = r.sync := by
  unfold RefTarget.startBusy; split <;> rfl

@[simp] theorem RefTarget.latch_sync (v a : Byte) : (r.latch v a).sync = r.sync := by
  unfold RefTarget.latch; repeat (first | rfl | split)

@[simp] theorem RefTarget.mutate_sync (a : Byte) (n : Nat) : (r.mutate a n).sync = r.sync := by
  unfold RefTarget.mutate; repeat (first | rfl | simp only [RefTarget.startBusy_sync] | split)

/-- Only the first bit position of a transaction changes `sync` (R48). -/
@[simp] theorem RefTarget.finish_sync (v a : Byte) (n : Nat) : (r.finish v a n).sync = r.sync := by
  unfold RefTarget.finish; split <;> simp

/-! ### The reference target's `lost` -/

@[simp] theorem RefTarget.onTick_lost : r.onTick.lost = r.lost := rfl
@[simp] theorem RefTarget.scramble_lost (n : Nat) : (r.scramble n).lost = r.lost := rfl
@[simp] theorem RefTarget.initial_lost (n : Nat) : (r.initial n).lost = false := rfl
@[simp] theorem RefTarget.powerDown_lost (n : Nat) : (r.powerDown n).lost = false := rfl
@[simp] theorem RefTarget.abort_lost (n : Nat) : (r.abort n).lost = true := rfl
@[simp] theorem RefTarget.begin_lost (p : Bool) : (r.begin p).lost = (r.lost || !p) := rfl

@[simp] theorem RefTarget.startBusy_lost (n : Nat) : (r.startBusy n).lost = r.lost := by
  unfold RefTarget.startBusy; split <;> rfl

@[simp] theorem RefTarget.latch_lost (v a : Byte) : (r.latch v a).lost = r.lost := by
  unfold RefTarget.latch; repeat (first | rfl | split)

@[simp] theorem RefTarget.mutate_lost (a : Byte) (n : Nat) : (r.mutate a n).lost = r.lost := by
  unfold RefTarget.mutate; repeat (first | rfl | simp only [RefTarget.startBusy_lost] | split)

@[simp] theorem RefTarget.finish_lost (v a : Byte) (n : Nat) : (r.finish v a n).lost = r.lost := by
  unfold RefTarget.finish; split <;> simp

/-- A power action that neither switches VCC off nor finds it off leaves `lost` as it is (I4). -/
theorem RefTarget.onPower_lost {a : PowerAct} {stage : PowerStage} (ha : a ≠ .vccOff) (hs : stage ≠ .off) (n : Nat) :
    (r.onPower a stage n).lost = r.lost := by simp [RefTarget.onPower, ha, hs]

/-- VCC off is the one action after which the power-up stands before its start (R124). -/
theorem Rails.stageAfter_ne_off {a : PowerAct} {q : Rails} (hq : q.stage ≠ .off) (ha : a ≠ .vccOff) : q.stageAfter a ≠ .off := by
  unfold Rails.stageAfter
  split <;> (try split) <;> simp_all

end Sys2Proof.Machine
end

