-- ==== Sys2Proof/Tests/Slice0.lean ====
section
/-! SUPPORT. The model's own tests. Expected values are the spec's worked examples and vectors (`95_test_vectors.md`, cited by
their ids) or hand calculation from the rules cited; after them, one witness for each statement that has hypotheses. -/

set_option maxRecDepth 100000

namespace Sys2Proof.Machine.Tests

/-! ### Small states -/

/-- The block after reset with one tick a cycle, `T_POLL` = 2, and free draws that are all 0. -/
def base : State :=
  { State.reset with
    time := ⟨.every 0, 0, 0⟩, levels := List.replicate 500 false, cfg := { Config.standard with tPoll := 2 } }

/-- The rails of a target powered up as R124 says. -/
def upRails : Rails := ⟨true, false, true, .stabilize 300⟩

/-- A line held at one level, powered up (P4). -/
def stuck (b : Bool) : State := { base with target := .held b, rails := upRails }

/-- An ATtiny85 fixture with both lock bits programmed (V40, P3) and busy times of one tick. -/
def tiny85 : RefTarget :=
  { sig1 := 0x93, sig2 := 0x0B, lf := 0x62, hf := 0xDF, ef := 0xFF, lock := 0xFC, erased := false, cmd := 0, idx := 0,
    dat := 0, prev := none, busyLeft := 0, busyTimes := [1, 1, 1, 1] }

/-- A powered-up reference target (R124). -/
def up (t : RefTarget) : State :=
  { base with target := .reference t, rails := upRails }

/-- A fact about the next state of an outcome. -/
def after (o : Host.Outcome State Fault Refusal) (p : State → Bool) : Bool :=
  match o with
  | .next t => p t
  | .fault _ => false
  | .refused _ => false

/-- The outcome is this refusal. -/
def refusedBy (o : Host.Outcome State Fault Refusal) (r : Refusal) : Bool :=
  match o with
  | .next _ => false
  | .fault _ => false
  | .refused q => q == r

/-- The storage of a reference target. -/
def stored (t : Target) : Option (Byte × Byte × Byte × Byte × Bool) :=
  match t with
  | .reference r => some (r.lf, r.hf, r.ef, r.lock, r.erased)
  | .oracle => none
  | .held _ => none

/-- The (SII, SDI) levels of the drive events, in order. -/
def driven (es : List Event) : List (Bool × Bool) :=
  es.filterMap fun
    | .drive _ a b => some (a, b)
    | _ => none

/-- How many poll samples an event list has. -/
def pollSamples (es : List Event) : Nat :=
  es.countP fun
    | .pollSample _ => true
    | _ => false

/-! ### WellFormed -/

/-- R61: a WRFUSE to a named bank is not the decoder's spelling; one to another address is. -/
theorem test_wellFormed_refuses_named_wrfuse :
    (Instr.wrfuse 0x646C 0x62).wellFormed = false ∧ (Instr.wrfuse 0x747C 0).wellFormed = false ∧
    (Instr.wrfuse 0x666E 0).wellFormed = false ∧ (Instr.wrfuse 0x1234 0x55).wellFormed = true ∧
    (Instr.wrlfuse 0x62).wellFormed = true := by decide

/-! ### Decode: the words of V6 and V21, written out from R51 and R52 -/

theorem test_decode_transact : decode 0x00004C40 = .ok (.transact 0x40 0x4C) := rfl
theorem test_decode_transact_zero : decode 0x00000000 = .ok (.transact 0 0) := rfl
theorem test_decode_rdsig : decode 0x01000000 = .ok .rdsig := rfl
theorem test_decode_rdfuses : decode 0x02000000 = .ok .rdfuses := rfl
theorem test_decode_wrfuse : decode 0x03FFFFFF = .ok (.wrfuse 0xFFFF 0xFF) := rfl
theorem test_decode_wrlfuse : decode 0x03646C62 = .ok (.wrlfuse 0x62) := rfl
theorem test_decode_wrhfuse : decode 0x03747CDF = .ok (.wrhfuse 0xDF) := rfl
theorem test_decode_wrefuse : decode 0x03666EFF = .ok (.wrefuse 0xFF) := rfl
theorem test_decode_rdlock : decode 0x04000000 = .ok .rdlock := rfl
theorem test_decode_erase : decode 0x05000000 = .ok .erase := rfl

/-- V6, the reserved words. -/
theorem test_decode_reserved_op : decode 0x06000000 = .error .reservedOp ∧ decode 0x07000000 = .error .reservedOp :=
  ⟨rfl, rfl⟩

theorem test_decode_reserved_sbz : decode 0x08000000 = .error .sbzNotZero ∧ decode 0x80000001 = .error .sbzNotZero :=
  ⟨rfl, rfl⟩

theorem test_decode_reserved_fields :
    decode 0x00010000 = .error .unusedFieldNotZero ∧ decode 0x01000001 = .error .unusedFieldNotZero ∧
    decode 0x05000100 = .error .unusedFieldNotZero ∧ decode 0x02FF0000 = .error .unusedFieldNotZero ∧
    decode 0x04000080 = .error .unusedFieldNotZero := ⟨rfl, rfl, rfl, rfl, rfl⟩

/-- V21: `WRFUSE LFUSE, 0x62` is the word 0x03646C62 in either spelling. -/
theorem test_encode_wrfuse : encode (.wrfuse 0x646C 0x62) = 0x03646C62 ∧ encode (.wrlfuse 0x62) = 0x03646C62 := by decide

theorem test_decodeTableWord : decodeTableWord 32 0x03646C62 = some (.wrlfuse 0x62) ∧ decodeTableWord 32 0x06000000 = none := by
  decide

/-! ### Operand forms and status -/

/-- V1 and R57. -/
theorem test_frames : frame 0x00 = 0x000 ∧ frame 0x40 = 0x100 ∧ frame 0x4C = 0x130 ∧ frame 0x80 = 0x200 ∧
    frame 0x01 = 0x004 ∧ frame 0xFF = 0x3FC ∧ frame 0x7E = 0x1F8 := by decide

/-- V3: `10000000011`, `01000000000`, `00000000100`, `11010101011`. -/
theorem test_resultOf :
    resultOf [true, false, false, false, false, false, false, false, false, true, true] = 0x00 ∧
    resultOf [false, true, false, false, false, false, false, false, false, false, false] = 0x80 ∧
    resultOf [false, false, false, false, false, false, false, false, true, false, false] = 0x01 ∧
    resultOf [true, true, false, true, false, true, false, true, false, true, true] = 0xAA := by decide

/-- V30. -/
theorem test_lock_decoder : (lb1Prog 0xFC, lb2Prog 0xFC) = (true, true) ∧ (lb1Prog 0xFD, lb2Prog 0xFD) = (false, true) ∧
    (lb1Prog 0x02, lb2Prog 0x02) = (true, false) ∧ (lb1Prog 0xFF, lb2Prog 0xFF) = (false, false) := by decide

/-- R107. -/
theorem test_event_codes : (Event.pollTimeout .erase 0).code = some 1 ∧ (Event.reservedCommand 0).code = some 2 ∧
    (Event.cmdWhileBusy 0 .erase 0).code = some 3 ∧ (Event.resetAbort .erase 0 0).code = some 4 ∧
    (Event.unknownSignature 0).code = some 16 ∧ (Event.cmdDone .erase).code = none := by decide

/-! ### The commands -/

/-- V2, the samples. -/
def v2Levels : List Bool := [true, false, false, true, true, false, false, false, true, false, false, false]

/-- V2: `TRANSACT 0x40, 0x4C` with samples 0,0,1,1,0,0,0,1,0,0,0 after a ready poll: the lines of the table and 0x62. -/
theorem test_transact_v2 : after (exec (.transact 0x40 0x4C) { base with levels := v2Levels }) (fun t =>
    t.res.tx == 0x62 && t.res.txValid && !t.busy && t.events.countP Event.isClkHigh == 11 &&
    driven t.events == [(false, false), (false, false), (true, true), (false, false), (false, false), (true, false),
      (true, false), (false, false), (false, false), (false, false), (false, false)]) = true := by decide +kernel

/-- V2 with `LINE_BIND = VALUE_ON_SII`: the columns swap and the result stays. -/
theorem test_transact_swapped : after (exec (.transact 0x40 0x4C)
      { base with levels := v2Levels, cfg := { base.cfg with lineBind := .valueOnSii } }) (fun t =>
    t.res.tx == 0x62 && driven t.events == [(false, false), (false, false), (true, true), (false, false), (false, false),
      (false, true), (false, true), (false, false), (false, false), (false, false), (false, false)]) = true := by
  decide +kernel

/-- V10, row 0x930B, with other bytes in `sigacc` before. -/
theorem test_rdsig : after (exec .rdsig { up tiny85 with sigacc := 0xABCD }) (fun t =>
    t.res.sig == 0x930B && t.res.sigValid && !t.res.lockValid && !t.events.any Event.isPollTimeout) = true := by
  decide +kernel

/-- V4: SDO stuck low, `T_POLL` = 3: 32 poll samples, 8 timeouts, `RES_SIG` = 0x0000. -/
theorem test_rdsig_stuck_low : after (exec .rdsig { stuck false with cfg := { base.cfg with tPoll := 3 } }) (fun t =>
    t.res.sig == 0 && t.res.sigValid && pollSamples t.events == 32 && t.events.countP Event.isPollTimeout == 8) = true := by
  decide +kernel

/-- V20. -/
theorem test_rdfuses : after (exec .rdfuses (up { tiny85 with lf := 0xE2, hf := 0xDD, ef := 0xFE })) (fun t =>
    t.res.lfuse == 0xE2 && t.res.hfuse == 0xDD && t.res.efuse == 0xFE && (txView t.events).length == 9) = true := by
  decide +kernel

/-- V50: `rst` in the cycle after step 2 of RDFUSES ends (each transaction of a ready target takes 45 cycles). -/
theorem test_rdfuses_reset : after (exec .rdfuses
      { up { tiny85 with lf := 0xE2 } with host := List.replicate 135 .quiet ++ [.rst] }) (fun t =>
    t.trace.head? == some (.resetAbort .readFuses 3 10) && !t.busy && t.bs == .idle && !t.sii && !t.sdi && !t.sci &&
    t.res.lfuse == 0xE2 && t.res.lfuseValid && !t.res.hfuseValid && !t.res.efuseValid) = true := by decide +kernel

/-- V23: the transactions of `WRFUSE 0x1234, 0x55`; no fuse of the reference target changes. -/
theorem test_wrfuse : after (exec (.wrfuse 0x1234 0x55) (up tiny85)) (fun t =>
    (txView t.events).map (fun x => (x.1, x.2.1)) == [(0x40, 0x4C), (0x55, 0x2C), (0x00, 0x12), (0x00, 0x34)] &&
    stored t.target == some (0x62, 0xDF, 0xFF, 0xFC, false) && t.res == Results.reset) = true := by decide +kernel

/-- V21, V22: `WRFUSE LFUSE, 0x6A` stores the low fuse only and writes no result register. -/
theorem test_wrlfuse : after (exec (.wrlfuse 0x6A) (up tiny85)) (fun t =>
    (txView t.events).map (fun x => (x.1, x.2.1)) == [(0x40, 0x4C), (0x6A, 0x2C), (0x00, 0x64), (0x00, 0x6C)] &&
    stored t.target == some (0x6A, 0xDF, 0xFF, 0xFC, false) && t.res == Results.reset) = true := by decide +kernel

theorem test_wrhfuse : after (exec (.wrhfuse 0x00) (up tiny85)) (fun t =>
    (txView t.events).map (fun x => (x.1, x.2.1)) == [(0x40, 0x4C), (0x00, 0x2C), (0x00, 0x74), (0x00, 0x7C)] &&
    stored t.target == some (0x62, 0x00, 0xFF, 0xFC, false)) = true := by decide +kernel

theorem test_wrefuse : after (exec (.wrefuse 0x5A) (up tiny85)) (fun t =>
    (txView t.events).map (fun x => (x.1, x.2.1)) == [(0x40, 0x4C), (0x5A, 0x2C), (0x00, 0x66), (0x00, 0x6E)] &&
    stored t.target == some (0x62, 0xDF, 0x5A, 0xFC, false)) = true := by decide +kernel

/-- V25, `T_POLL` = 300: a target busy for 10 more ticks: the first poll waits for them and ends READY. With a tick in every
cycle one of the ten passes in the cycle of acceptance, so that poll takes 9 low samples and a high one, and the other eight
polls one each. -/
theorem test_rdfuses_busy_target : after (exec .rdfuses
      { up { tiny85 with busyLeft := 10 } with cfg := Config.standard }) (fun t =>
    t.res.lfuse == 0x62 && pollSamples t.events == 18 && !t.events.any Event.isPollTimeout) = true := by decide +kernel

/-- V25, `T_POLL` = 2: the first poll of a command on a busy target times out and the target loses step. -/
theorem test_transact_desync : after (exec (.transact 0 0) (up { tiny85 with busyLeft := 10 })) (fun t =>
    t.events.countP Event.isPollTimeout == 1 &&
      (match t.target with
        | .reference r => !r.sync
        | .oracle => false
        | .held _ => false)) = true := by decide +kernel

/-- V30, `lock` = 0xFD. -/
theorem test_rdlock : after (exec .rdlock (up { tiny85 with lock := 0xFD })) (fun t =>
    t.res.lock == 0xFD && t.portValue .lb1Prog == some 0 && t.portValue .lb2Prog == some 1) = true := by decide +kernel

/-- V4: `T_POLL` = 0 and a ready target: 3 poll samples and no timeout. -/
theorem test_rdlock_tpoll_zero : after (exec .rdlock
      { up { tiny85 with lock := 0xFF } with cfg := { Config.standard with tPoll := 0 } }) (fun t =>
    t.res.lock == 0xFF && pollSamples t.events == 3 && !t.events.any Event.isPollTimeout) = true := by decide +kernel

/-- V41: with `lock` = 0xF0 an erase leaves 0xF3; fuses unchanged, `erased` set, no result register written. -/
theorem test_erase : after (exec .erase (up { tiny85 with lock := 0xF0 })) (fun t =>
    (txView t.events).map (fun x => (x.1, x.2.1)) == [(0x80, 0x4C), (0x00, 0x64), (0x00, 0x6C)] &&
    stored t.target == some (0x62, 0xDF, 0xFF, 0xF3, true) && t.res == Results.reset) = true := by decide +kernel

/-- V7: a command presented in READ_SIG's busy window refuses the run. -/
theorem test_busy_window : refusedBy (exec .rdsig { up tiny85 with host := [.quiet, .present 0x04000000] })
    (.cmdWhileBusy 0x04000000 .readSig 0) = true := by decide +kernel

/-- R111: a step of a marked run is refused. -/
theorem test_marked_run : refusedBy (step { base with mark := some (.cmdWhileBusy 0x04000000 .readSig 0) })
    (.cmdWhileBusy 0x04000000 .readSig 0) = true := by decide

/-- V6: a reserved word on the port. -/
theorem test_reserved_word : refusedBy (step (State.reset.withFetchWord 32 0x06000000)) (.reservedCommand 0x06000000) = true := by
  decide

/-- R128: with the response line still an output the samples are free draws, here all 0, whatever the target holds. -/
theorem test_response_line_output : after (exec .rdlock { up tiny85 with rails := { upRails with responseIsInput := false } })
    (fun t => t.res.lock == 0 &&
      (match t.target with
        | .reference r => r.sync
        | .oracle => false
        | .held _ => false)) = true := by decide +kernel

/-- R128 for a held line: with the response line an output its level does not reach the block. -/
theorem test_held_line_output : after (exec (.transact 0 0) { stuck true with rails := { upRails with responseIsInput := false } })
    (fun t => t.res.tx == 0x00) = true := by decide +kernel

/-- R124: the power actions in order bring the target up, also with longer waits or an output level set again; too short a wait
or 12 V before VCC does not; an output line turned back to input is ready again (R128). -/
theorem test_power_up :
    (powerUpActs.foldl (fun r a => r.act a) Rails.reset).ready = true ∧
    (([.vccOn, .wait 15, .wait 6, .resetLow, .wait 11, .responseIn, .wait 300, .wait 40] : List PowerAct).foldl
      (fun r a => r.act a) Rails.reset).ready = true ∧
    (([.vccOn, .wait 19, .resetLow, .wait 10, .responseIn, .wait 300] : List PowerAct).foldl
      (fun r a => r.act a) Rails.reset).ready = false ∧
    (([.resetLow, .vccOn, .wait 20, .wait 10, .responseIn, .wait 300] : List PowerAct).foldl
      (fun r a => r.act a) Rails.reset).ready = false ∧
    ((upRails.act .responseOutLow).ready, (upRails.act .responseOutLow).powered,
      ((upRails.act .responseOutLow).act .responseIn).ready) = (false, true, true) ∧
    ((upRails.act .resetHigh).powered, (upRails.act .vccOff).stage) = (false, .off) := by decide

/-! ### The host -/

/-- R28: no value before TRANSACT: the read faults the run, which goes on with the next read. -/
theorem test_read_faults : after (step { base with host := [.read .lb1Prog, .read .resTx] })
    (fun t => after (step t) fun u => u.faults == [.resTx, .lb1Prog] && u.reads.length == 2 && u.res == Results.reset) = true := by
  decide

theorem test_read_value : after (step { base with
    res := { Results.reset with lock := 0xFE, lockValid := true }, host := [.read .resLock, .read .lb1Prog] })
    (fun t => t.reads == [(.resLock, 0xFE)] && t.faults == [] && t.host == [.read .lb1Prog]) = true := by decide

/-- R122: a reset cycle on an idle block leaves no result register with a value (R31). -/
theorem test_idle_reset : after (step { base with
    res := { Results.reset with lock := 0xFE, lockValid := true }, host := [.rst] })
    (fun t => t.portValue .resLock == none && t.events == []) = true := by decide

/-- R60, R61. -/
theorem test_assemble : assembleLine "  WRFUSE LFUSE, 0x62 ; low fuse" = .ok (some (.wrfuse 0x646C 0x62)) ∧
    assembleLine "TRANSACT 64, 0x4C" = .ok (some (.transact 0x40 0x4C)) ∧ assembleLine "; only a comment" = .ok none ∧
    assembleLine "WRLFUSE 256" = .error .operandTooWide ∧ assembleLine "RDSIG 1" = .error .operandCount :=
  ⟨rfl, rfl, rfl, rfl, rfl⟩

/-! ### The Session Controller -/

/-- P5: an unknown signature raises the host event and is followed by the reads. -/
theorem test_session_unknown : after (step { base with
    res := { Results.reset with sig := 0x1234, sigValid := true },
    sess := { Session.reset with phase := .identifying } })
    (fun t => t.events == [.unknownSignature 0x1234] && t.sess.phase == .reading && t.sess.todo == [.rdfuses, .rdlock]) = true := by
  decide

/-- P2: write-defaults on an ATtiny13. -/
theorem test_session_tiny13 : after (step { base with
    res := { Results.reset with sig := 0x9007, sigValid := true },
    sess := { Session.reset with phase := .identifying } })
    (fun t => t.events == [] && t.sess.phase == .writing && t.sess.todo == [.wrlfuse 0x6A, .wrhfuse 0xFF]) = true := by
  decide

/-- R97, R124: a request starts the power-up. -/
theorem test_session_request : after (step { base with host := [.request .erase] })
    (fun t => t.sess.phase == .poweringUp && t.sess.mode == .erase && t.sess.power == powerUpActs && t.host == []) = true := by
  decide

/-- R105: the transactions of each session. -/
theorem test_session_commands :
    ([(Mode.readOnly, (0x930B : Half)), (.erase, 0x930B), (.writeDefaults, 0x9007), (.writeDefaults, 0x9108),
      (.writeDefaults, 0x1234)].map fun x => ((sessionCommands x.1 x.2).map fun i => seqLen i.op).sum) =
      [20, 23, 28, 32, 20] := by decide

/-- R95. -/
theorem test_mode_tokens : modeOfToken "read-only" = .readOnly ∧ modeOfToken "erase" = .erase ∧
    modeOfToken "write-defaults" = .writeDefaults ∧ modeOfToken "anything" = .writeDefaults := by decide

/-- R124: a command before the end of step (5)'s wait makes the power-up wrong, and the rest of the wait does not mend it. -/
theorem test_command_before_power_up : after (exec .rdlock { stuck true with rails := { upRails with stage := .stabilize 200 } })
    (fun t => t.res.lock == 0x00 && !((t.rails.act (.wait 300)).ready) && t.rails.stage == .wrong) = true := by decide +kernel

/-- I4: a target that gets power is in step again, unless a transaction had begun while it was busy (R48, D25). -/
theorem test_power_on : after (step { base with
    target := .reference { tiny85 with lost := true, busyLeft := 3 }, host := [.power .vccOn] })
    (fun t => t.rails.stage == .vccSettle 0 &&
      (match t.target with
        | .reference r => r.inStep && r.prev == none && r.busyLeft == 0 && r.lf == 0x62
        | .oracle => false
        | .held _ => false)) = true := by decide +kernel

/-- R124: 12 V goes off before VCC, and the target is powered down with VCC; R48, D25: out of step for good. -/
theorem test_power_down : after (step { up { tiny85 with sync := false } with
    sess := { Session.reset with phase := .poweringDown, power := [.vccOff] } })
    (fun t => !t.rails.vcc && !t.rails.ready &&
      (match t.target with
        | .reference r => !r.sync
        | .oracle => false
        | .held _ => false)) = true := by decide

/-! ### Witnesses

Each states the hypotheses of the statement it is named after, all together, for a concrete state. -/

/-- A state with the block in a phase of READ_LOCK's first transaction (0x04, 0x4C). -/
def mid (bs : Phase) (pos : Nibble) : State :=
  { stuck false with busy := true, op := .readLock, bs := bs, fv := frame 0x04, fa := frame 0x4C, pos := pos }

/-- EveryCommandPlaysItsSequence, TransactPutsTheSampledByteInResTx, ReadSignatureIsBigEndian, ReadFusesStoresThreeBanks,
WriteFuseSendsFourTransactions, NamedFuseWritesAreFuseWrites, ReadLockStoresTheThirdByte, EraseSendsThreeTransactions,
TransactionCountsAreFixed: the machine after reset is ready. -/
theorem test_witness_Ready : State.reset.Ready := ⟨rfl, rfl, rfl, rfl⟩

/-- The same, and that actions wait (the premise of EveryCommandPlaysItsSequence's last clause), with a command waiting. -/
theorem test_witness_EveryCommandPlaysItsSequence :
    State.Ready { base with host := [.issue 0x05000000] } ∧ portActFirst [.issue 0x05000000] = false :=
  ⟨⟨rfl, rfl, rfl, rfl⟩, rfl⟩

theorem test_witness_DecodeOfEncodeIsTheInstruction : (Instr.wrfuse 0x646D 0xFF).wellFormed = true := by decide

theorem test_witness_EncodeOfDecodeIsTheWord : decode 0x0000FFFF = .ok (.transact 0xFF 0xFF) := rfl

/-- Each kind of reserved word at a boundary, on an idle unmarked block. -/
theorem test_witness_ReservedWordsAreNotAccepted :
    State.reset.mark = none ∧ State.reset.busy = false ∧
    (State.reset.withFetchWord 32 0x08000000).host = .present 0x08000000 :: [] ∧
    decode 0x08000000 = .error .sbzNotZero ∧ decode 0x07FFFFFF = .error .reservedOp ∧
    decode 0x06000000 = .error .reservedOp ∧ decode 0x00010000 = .error .unusedFieldNotZero ∧
    decode 0x05000001 = .error .unusedFieldNotZero := ⟨rfl, rfl, rfl, rfl, rfl, rfl, rfl, rfl⟩

theorem test_witness_OperandsAreAssembledAsTheRomSays :
    (mid .poll 10).seq[(mid .poll 10).step.toNat]? = some ⟨0x04, 0x4C, .discard⟩ := by decide

theorem test_witness_StepRunsTheDecodedInstruction :
    State.reset.mark = none ∧ State.reset.busy = false ∧ State.reset.sess.phase = .idle ∧
    (State.reset.withFetchWord 32 0x05000000).host = .present 0x05000000 :: [] ∧
    ({ State.reset with host := [.issue 0x05000000] } : State).host = .issue 0x05000000 :: [] ∧
    decode 0x05000000 = .ok .erase := ⟨rfl, rfl, rfl, rfl, rfl, rfl⟩

theorem test_witness_BusyBlockRefusesCommands :
    (mid .drive 10).busy = true ∧ (mid .drive 10).mark = none ∧
    ({ mid .drive 10 with host := [.present 0x06000000] } : State).host = .present 0x06000000 :: [] := ⟨rfl, rfl, rfl⟩

theorem test_witness_CommandWhileBusyDoesNotDisturbTheMicroStep : (mid .clkl 0).busy = true := rfl

/-- A marked idle block, and an instruction that answers next. -/
theorem test_witness_MarkedRunStaysRefused :
    ({ base with mark := some (.reservedCommand 0x06000000) } : State).mark = some (.reservedCommand 0x06000000) ∧
    base.busy = false ∧ ∃ t, exec .erase (stuck false) = .next t := by
  obtain ⟨t, _, h, -⟩ := runCommand_completes .erase 0 0 (s := stuck false) ⟨rfl, rfl, rfl, rfl⟩
  exact ⟨rfl, rfl, t, h⟩

theorem test_witness_ExecIsTheCycleMachine : base.busy = false ∧ (after (exec .erase (stuck false)) fun t => !t.busy) = true := by
  decide +kernel

/-- An exec that answers next: the premise of ResultRegistersHaveOneWriter and LineBindingDoesNotChangeResults. -/
theorem test_witness_ResultRegistersHaveOneWriter : ∃ t, exec .rdlock (stuck true) = .next t := by
  obtain ⟨t, _, h, -⟩ := runCommand_completes .readLock 0 0 (s := stuck true) ⟨rfl, rfl, rfl, rfl⟩
  exact ⟨t, h⟩

theorem test_witness_LineBindingDoesNotChangeResults : ∃ t, exec (.wrhfuse 0xDF) (stuck true) = .next t := by
  obtain ⟨t, _, h, -⟩ := runCommand_completes .writeFuse 0xDF Config.hfuse (s := stuck true) ⟨rfl, rfl, rfl, rfl⟩
  exact ⟨t, h⟩

theorem test_witness_ResultBitsAreSamplesOneToEight : (List.replicate 11 true).length = 11 ∧ 7 < 8 ∧ 0 < 8 := by decide

/-- PollWaitsForHighOrTheBound: its hypotheses with each clause's: a high level; low at the bound; low just below it. -/
theorem test_witness_PollWaitsForHighOrTheBound :
    (({ mid .poll 10 with target := .held true } : State).sdo = true) ∧
    ((mid .poll 10).busy = true ∧ (mid .poll 10).bs = .poll ∧ hostQuiet (mid .poll 10).host = true) ∧
    (({ mid .poll 10 with pollT := 2 } : State).sdo = false ∧
      ({ mid .poll 10 with pollT := 2 } : State).cfg.tPoll ≤ ({ mid .poll 10 with pollT := 2 } : State).pollT) ∧
    (({ mid .poll 10 with pollT := 1 } : State).sdo = false ∧
      ({ mid .poll 10 with pollT := 1 } : State).pollT < ({ mid .poll 10 with pollT := 1 } : State).cfg.tPoll) := by decide

/-- DrivePutsTheFrameBitsOnTheLines: both bindings, first and last position. -/
theorem test_witness_DrivePutsTheFrameBitsOnTheLines :
    (mid .drive 10).busy = true ∧ (mid .drive 10).bs = .drive ∧ hostQuiet (mid .drive 10).host = true ∧
    (mid .drive 0).cfg.lineBind = .valueOnSdi ∧
    ({ mid .drive 0 with cfg := { base.cfg with lineBind := .valueOnSii } } : State).cfg.lineBind = .valueOnSii := by decide

/-- A clock-low state at the last position, in any transaction of any command. -/
def lastLow (op : Op) (step : Nibble) : State := { mid .clkl 0 with sci := true, op := op, step := step }

theorem test_lastLow_inv {op : Op} {step : Nibble} (h : step.toNat < seqLen op) : (lastLow op step).Inv where
  busy_iff := (by decide : (mid .clkl 0).busy = true ↔ (mid .clkl 0).bs ≠ .idle)
  fv_frame := fun _ => (by decide : (mid .clkl 0).fv = frame (frameByte (mid .clkl 0).fv))
  fa_frame := fun _ => (by decide : (mid .clkl 0).fa = frame (frameByte (mid .clkl 0).fa))
  pos_le := fun _ => (by decide : (mid .clkl 0).pos.toNat ≤ 10)
  poll_start := fun hb => by cases hb
  step_lt := fun _ => h
  sci_low := fun _ => rfl
  lines_rest := by rintro (hb | hb) <;> cases hb
  lines_bit := fun _ => (by decide : ((mid .clkl 0).sii, (mid .clkl 0).sdi) = (mid .clkl 0).lineNow)

/-- TransactionEndWritesItsSink: an entry for each sink, the folds of READ_SIG in the middle and at the end. -/
theorem test_witness_TransactionEndWritesItsSink :
    (lastLow .transact 0).Inv ∧ (lastLow .readFuses 8).Inv ∧ (lastLow .readSig 7).Inv ∧
    (lastLow .readSig 7).busy = true ∧ (lastLow .readSig 7).bs = .clkl ∧ (lastLow .readSig 7).pos = 0 ∧
    hostQuiet (lastLow .readSig 7).host = true ∧
    ([(Op.transact, (0 : Nibble)), (.erase, 2), (.readFuses, 2), (.readFuses, 5), (.readFuses, 8), (.readLock, 2),
      (.readSig, 3), (.readSig, 7)].map fun x => ((lastLow x.1 x.2).seq[(lastLow x.1 x.2).step.toNat]?).map fun e => e.sink) =
      [some .tx, some .discard, some .lf, some .hf, some .ef, some .lock, some .sig, some .sig] ∧
    (3 : Nibble).toNat + 1 < seqLen .readSig ∧ (7 : Nibble).toNat + 1 = seqLen .readSig :=
  ⟨test_lastLow_inv (by decide), test_lastLow_inv (by decide), test_lastLow_inv (by decide), rfl, rfl, rfl, rfl, by decide,
    by decide, by decide⟩

/-- TransactionEndsWithinItsBound: the start of a transaction. -/
theorem test_witness_TransactionEndsWithinItsBound :
    (mid .poll 10).Inv ∧ (mid .poll 10).busy = true ∧ (mid .poll 10).bs = .poll ∧ (mid .poll 10).pollT = 0 ∧
    hostQuiet (mid .poll 10).host = true ∧ (mid .poll 10).time.fair = true :=
  ⟨⟨by decide, by decide, by decide, by decide, by decide, by decide, by decide, by decide, by decide⟩, rfl, rfl, rfl, rfl, rfl⟩

/-- CommandEndsWithinItsBound: a held-low line meets the bound, `T_POLL` = 2: 1 + 3 * 47 cycles for READ_LOCK, each traced once
but for the acceptance. -/
theorem test_witness_CommandEndsWithinItsBound :
    (stuck false).Ready ∧ (stuck false).time = ⟨.every 0, 0, 0⟩ ∧
    ((State.cycles (3 * 47) { stuck false with host := [.present 0x04000000] }).busy = true ∧
      (State.cycles (1 + 3 * 47) { stuck false with host := [.present 0x04000000] }).busy = false) :=
  ⟨⟨rfl, rfl, rfl, rfl⟩, rfl, by decide +kernel⟩

/-- SampleShiftsOneLevelInWhileSciIsLow: position 8, where SII carries a 1 of `F(0x4C)`. -/
theorem test_witness_SampleShiftsOneLevelInWhileSciIsLow :
    State.Inv { mid .sample 8 with sii := true } ∧ ({ mid .sample 8 with sii := true } : State).busy = true ∧
    hostQuiet (mid .sample 8).host = true :=
  ⟨⟨by decide, by decide, by decide, by decide, by decide, by decide, by decide, by decide, by decide⟩, rfl, rfl⟩

theorem test_witness_ClockHighRaisesSci :
    (mid .clkh 8).busy = true ∧ (mid .clkh 8).bs = .clkh ∧ hostQuiet (mid .clkh 8).host = true := ⟨rfl, rfl, rfl⟩

/-- ClockLowEndsAPositionOrTheTransaction: position 1; position 0 of the first and of the last transaction. -/
theorem test_witness_ClockLowEndsAPositionOrTheTransaction :
    State.Inv { mid .clkl 1 with sci := true } ∧ (mid .clkl 1).pos ≠ 0 ∧
    State.Inv { mid .clkl 0 with sci := true } ∧ (mid .clkl 0).step.toNat + 1 < seqLen (mid .clkl 0).op ∧
    State.Inv { mid .clkl 0 with sci := true, step := 2 } ∧
    ({ mid .clkl 0 with step := 2 } : State).step.toNat + 1 = seqLen (mid .clkl 0).op ∧
    (mid .clkl 0).busy = true ∧ hostQuiet (mid .clkl 0).host = true :=
  ⟨⟨by decide, by decide, by decide, by decide, by decide, by decide, by decide, by decide, by decide⟩, by decide,
   ⟨by decide, by decide, by decide, by decide, by decide, by decide, by decide, by decide, by decide⟩, by decide,
   ⟨by decide, by decide, by decide, by decide, by decide, by decide, by decide, by decide, by decide⟩, by decide, rfl, rfl⟩

theorem test_witness_HeldLineStillCompletesEveryCommand :
    (stuck false).Ready ∧ (stuck false).target = .held false ∧ (stuck true).Ready ∧ (stuck true).target = .held true ∧
    (stuck true).rails.ready = true ∧ (stuck false).rails.ready = true :=
  ⟨⟨rfl, rfl, rfl, rfl⟩, rfl, ⟨rfl, rfl, rfl, rfl⟩, rfl, by decide, by decide⟩

/-- StoppedTimeSourceHangsThePoll: one tick below the bound. -/
theorem test_witness_StoppedTimeSourceHangsThePoll :
    let s : State := { mid .poll 10 with time := ⟨.stopped, 0, 0⟩, pollT := 1 }
    s.busy = true ∧ s.bs = .poll ∧ s.target = .held false ∧ s.rails.ready = true ∧ s.time.rate = .stopped ∧ s.pollT < s.cfg.tPoll ∧
      hostQuiet s.host = true := by decide

/-- ResetAbandonsTheCommandInProgress: both cases of `busy`. -/
theorem test_witness_ResetAbandonsTheCommandInProgress : (mid .sample 3).busy = true ∧ State.reset.busy = false := ⟨rfl, rfl⟩

/-- ResetAbortMakesTheTargetAFreeDraw: the first and the last position of a response bit. -/
theorem test_witness_ResetAbortMakesTheTargetAFreeDraw :
    let s : State := { mid .sample 3 with target := .reference tiny85 }
    s.busy = true ∧ s.target = .reference tiny85 ∧
    ({ tiny85 with lock := 0x00 } : RefTarget).busyTimes = tiny85.busyTimes ∧
    ({ tiny85 with lock := 0x00 } : RefTarget).sync = tiny85.sync ∧ 2 ≤ (2 : Nibble).toNat ∧
    (9 : Nibble).toNat ≤ 9 := by decide

/-- ResetStateIsIdleWithNoResults: a port other than `busy`. -/
theorem test_witness_ResetStateIsIdleWithNoResults : Port.lb2Prog ≠ .busy := by decide

/-- RegisterInvariantIsKept: a state in the middle of a transaction, and a step that answers next from it. -/
theorem test_witness_RegisterInvariantIsKept :
    State.Inv { mid .sample 8 with sii := true } ∧
    (after (step { mid .sample 8 with sii := true }) fun t => t.bs == .clkh) = true :=
  ⟨⟨by decide, by decide, by decide, by decide, by decide, by decide, by decide, by decide, by decide⟩, by decide⟩

theorem test_witness_TraceOnlyGrowsAndParametersStay : (after (step (mid .clkh 8)) fun t => t.trace == [.clkHigh 8]) = true := by
  decide

/-- LockDecoderTruthTable: each row. -/
theorem test_witness_LockDecoderTruthTable :
    (0xFC : Byte).extractLsb' 0 2 = 0#2 ∧ (0x01 : Byte).extractLsb' 0 2 = 1#2 ∧ (0xFE : Byte).extractLsb' 0 2 = 2#2 ∧
    (0x03 : Byte).extractLsb' 0 2 = 3#2 := by decide

/-- ReadingAnUnwrittenResultFaults: a port without a value, one with a value, and a written RES_LOCK. -/
theorem test_witness_ReadingAnUnwrittenResultFaults :
    let s : State := { base with res := { Results.reset with lock := 0xFE, lockValid := true }, host := [.read .resLock] }
    s.mark = none ∧ s.busy = false ∧ s.sess.phase = .idle ∧ s.host = .read .resLock :: [] ∧
    s.portValue .resLock = some 0xFE ∧ s.portValue .resSig = none ∧ s.res.lockValid = true := by decide

/-- ReadsReturnTheReferenceTargetsFields, FuseWriteThenReadRoundTrip, EraseThenReadLockIsUnprogrammed: the hypotheses. -/
theorem test_witness_ReferenceTarget :
    (up tiny85).Ready ∧ (up tiny85).target = .reference tiny85 ∧ tiny85.inStep = true ∧ (up tiny85).rails.ready = true ∧
    (up tiny85).cfg.kSig = .standard ∧ (up tiny85).cfg.kRf = .standard :=
  ⟨⟨rfl, rfl, rfl, rfl⟩, rfl, rfl, by decide, rfl, rfl⟩

/-- The same statements' last premise: every poll of both commands ends READY. -/
theorem test_witness_FuseWriteThenReadRoundTrip :
    (after (exec (.wrefuse 0x33) (up tiny85)) fun t => after (exec .rdfuses t) fun u =>
      !u.events.any Event.isPollTimeout && u.res.efuse == 0x33) = true := by decide +kernel

theorem test_witness_EraseThenReadLockIsUnprogrammed :
    (after (exec .erase (up tiny85)) fun t => after (exec .rdlock t) fun u =>
      !u.events.any Event.isPollTimeout && u.res.lock == 0xFF) = true := by decide +kernel

/-- ReferenceTargetAnswersBitByBit: a target that answers `lf` at samples 1 and 8, one without a response, a busy one out of
step, and the rails without power. -/
def answering : RefTarget := { tiny85 with cmd := 0x04, prev := some 0x68 }

theorem test_witness_ReferenceTargetAnswersBitByBit :
    let s : State := { mid .sample 9 with fa := frame 0x6C, target := .reference answering, rails := upRails }
    s.rails.ready = true ∧ Rails.reset.ready = false ∧ s.bs = .sample ∧ (mid .poll 10).bs = .poll ∧
    answering.inStep = true ∧ answering.busyLeft = 0 ∧ answering.response (frameByte s.fa) = some 0x62 ∧
    tiny85.response 0x6C = none ∧ ({ tiny85 with sync := false, busyLeft := 1 } : RefTarget).inStep = false ∧
    ({ tiny85 with lost := true } : RefTarget).inStep = false ∧
    ([(0 : Nat), 1, 8, 9, 10].map fun j => (BitVec.ofNat 4 (10 - j) : Nibble)) = [10, 9, 2, 1, 0] ∧
    s.sdo = false ∧ ({ s with pos := 8 } : State).sdo = true := by decide

/-- WithoutPowerUpEveryLevelIsFree: each of its two conditions. -/
theorem test_witness_WithoutPowerUpEveryLevelIsFree :
    Rails.powered { upRails with stage := .stabilize 299 } = false ∧
    Rails.responseIsInput { upRails with responseIsInput := false } = false := by decide

/-- CommandBeforePowerUpEndsMakesItWrong: one microsecond short of the end, and a wrong stage with actions after it. -/
theorem test_witness_CommandBeforePowerUpEndsMakesItWrong :
    State.Ready { stuck true with rails := { upRails with stage := .stabilize 299 } } ∧
    ({ upRails with stage := .stabilize 299 } : Rails).stage ≠ .off ∧
    Rails.powered { upRails with stage := .stabilize 299 } = false ∧
    ({ stuck true with rails := { upRails with stage := .wrong } } : State).rails.stage = .wrong ∧
    PowerAct.vccOff ∉ powerUpActs := ⟨⟨rfl, rfl, rfl, rfl⟩, by decide, by decide, rfl, by decide⟩

/-- PowerDownEndsTheLossOfStep: a target that is not busy, out of step. -/
theorem test_witness_PowerDownEndsTheLossOfStep :
    let s : State := { up { tiny85 with lost := true } with host := [.power .vccOff] }
    s.mark = none ∧ s.busy = false ∧ s.sess.phase = .idle ∧ s.host = .power .vccOff :: [] ∧
    s.target = .reference { tiny85 with lost := true } ∧ tiny85.busyLeft = 0 := by decide

/-- LossOfStepOfABusyTargetIsForGood: a target out of step, and a command and a power-down that are run on it. -/
theorem test_witness_LossOfStepOfABusyTargetIsForGood :
    (up { tiny85 with sync := false }).target = .reference { tiny85 with sync := false } ∧
    (after (exec .rdlock (up { tiny85 with sync := false })) fun _ => true) = true ∧
    (after (step { up { tiny85 with sync := false } with host := [.power .vccOff] }) fun _ => true) = true :=
  ⟨rfl, by decide +kernel, by decide⟩

/-- LossOfStepOfAnAbortLastsUntilPowerDown: a response bit's first and last position, a command, and steps from power to power,
a power action among them. -/
theorem test_witness_LossOfStepOfAnAbortLastsUntilPowerDown :
    ({ tiny85 with lost := true } : RefTarget).lost = true ∧ (mid .sample 9).bs = .sample ∧ (9 : Nibble).toNat ≤ 9 ∧
    2 ≤ (2 : Nibble).toNat ∧ upRails.stage ≠ .off ∧
    (after (exec .rdlock (up { tiny85 with lost := true })) fun t => t.rails.stage != .off) = true ∧
    (after (step { up { tiny85 with lost := true } with host := [.power .resetHigh] }) fun t => t.rails.stage != .off) = true :=
  ⟨rfl, rfl, by decide, by decide, by decide, by decide +kernel, by decide⟩

theorem test_witness_TransactionOnABusyTargetLosesStep :
    let s : State := { mid .drive 10 with target := .reference { tiny85 with busyLeft := 1 } }
    s.busy = true ∧ s.bs = .drive ∧ s.pos = 10 ∧ hostQuiet s.host = true ∧
    s.target = .reference { tiny85 with busyLeft := 1 } ∧ ({ tiny85 with busyLeft := 1 } : RefTarget).busyLeft ≠ 0 := by decide

theorem test_witness_RequestPowersTheTargetUp :
    let s : State := { State.reset with host := [.request .readOnly] }
    s.mark = none ∧ s.busy = false ∧ s.host = [.request .readOnly] ∧ s.sess.phase = .idle ∧ s.rails.stage = .off := by decide

/-- IdentifyingDispatchesByPrecedence: each class of signature, at its ends. -/
theorem test_witness_IdentifyingDispatchesByPrecedence :
    (0x910B : Half) ∈ [(0x910B : Half), 0x9108, 0x9207, 0x9206, 0x930C, 0x930B] ∧
    (0x930B : Half) ∈ [(0x910B : Half), 0x9108, 0x9207, 0x9206, 0x930C, 0x930B] ∧
    (0x1E93 : Half) ∉ [(0x9007 : Half), 0x910B, 0x9108, 0x9207, 0x9206, 0x930C, 0x930B] := by decide

/-- A session about to leave `Identifying` with a signature. -/
def identifying (sig : Half) : State :=
  { base with res := { Results.reset with sig := sig, sigValid := true }, sess := { Session.reset with phase := .identifying } }

/-- UnknownSignatureIsReportedByTheHost: a known and an unknown signature, and RES_SIG without a value. -/
theorem test_witness_UnknownSignatureIsReportedByTheHost :
    (identifying 0x930B).mark = none ∧ (identifying 0x930B).busy = false ∧ portActFirst (identifying 0x930B).host = false ∧
    (identifying 0x930B).sess.phase = .identifying ∧ (identifying 0x930B).sess.todo = [] ∧
    (identifying 0x930B).sess.power = [] ∧ (identifying 0x930B).res.sigValid = true ∧
    (identifying 0xFFFF).res.sig = 0xFFFF ∧ ({ identifying 0 with res := Results.reset } : State).res.sigValid = false :=
  ⟨rfl, rfl, rfl, rfl, rfl, rfl, rfl, rfl, rfl⟩

/-- SessionStatesFollowTheTransitionList: each state with nothing left to do. -/
theorem test_witness_SessionStatesFollowTheTransitionList :
    ∀ p ∈ [SessionPhase.writing, .erasing, .verifying, .reading, .poweringDown],
      let s : State := { base with sess := { Session.reset with phase := p } }
      s.mark = none ∧ s.busy = false ∧ portActFirst s.host = false ∧ s.sess.todo = [] ∧ s.sess.power = [] ∧
        s.sess.phase = p := by decide

theorem test_witness_EverySessionPlaysItsCommandsAndPowersDown :
    State.Ready { base with host := [.request .writeDefaults] } ∧ base.sess.phase = .idle :=
  ⟨⟨rfl, rfl, rfl, rfl⟩, rfl⟩

/-- AssemblerNeverTruncatesAnOperand: the widest byte and the first number that does not fit. -/
theorem test_witness_AssemblerNeverTruncatesAnOperand :
    parseNumber "255".toList = some 255 ∧ 255 < 2 ^ 8 ∧ parseNumber "0x100".toList = some 256 ∧ 2 ^ 8 ≤ 256 :=
  ⟨rfl, by decide, rfl, by decide⟩

end Sys2Proof.Machine.Tests
end

section
/-! SUPPORT. What one step, one cycle and one whole command can do, said once: the inversions and the induction that the proofs
about the block's state rest on. -/

namespace Sys2Proof.Machine

variable {s t : State}

/-! ### One step -/

/-- A step of an unmarked run with an idle block. -/
theorem step_idle (hm : s.mark = none) (hb : s.busy = false) : step s = idleStep s := by
  simp [step, liveStep, hm, hb]

theorem idleStep_portAct (h : portActFirst s.host = true) : idleStep s = hostStep s := by simp [idleStep, h]

theorem idleStep_noSession (h : s.sess.phase = .idle) : idleStep s = hostStep s := by simp [idleStep, h]

theorem fetch_of_decode {w : CmdWord} {i : Instr} (h : decode w = .ok i) (s : State) : fetch w s = exec i s := by
  simp [fetch, h]

/-- Every instruction is its command with its word's operand fields (R51, R52, R61). -/
theorem exec_eq_runCommand (i : Instr) (s : State) : exec i s = runCommand i.op i.v8 i.a16 s := by
  cases i <;> rfl

/-- The moves of the system: a cycle of `clk`, or, on an idle block, a whole command or one action of the host or of its Session
Controller (R93, R112). Which action comes next is left open, so there are more moves than steps; `step_eq_next` says that each
step is one of them. -/
inductive State.Moves (s : State) : State → Prop
  | cycle : s.Moves s.cycle
  | hostCommand {i : Instr} {h : List HostAct} {t : State} (idle : s.busy = false)
      (run : exec i { s with host := h } = .next t) : s.Moves t
  | sessionCommand {i : Instr} {todo : List Instr} {t : State} (idle : s.busy = false)
      (run : exec i { s with sess := { s.sess with todo := todo } } = .next t) : s.Moves t
  | read (p : Port) (h : List HostAct) (idle : s.busy = false) :
      s.Moves { State.lookAt p { s with host := h } with
        reads := (p, State.portRead { s with host := h } p) :: s.reads }
  | request (m : Mode) (h : List HostAct) (idle : s.busy = false) :
      s.Moves { s with host := h, sess := s.sess.start m }
  | hostPower (a : PowerAct) (h : List HostAct) (idle : s.busy = false) :
      s.Moves (State.powerAct a { s with host := h })
  | sessionPower (a : PowerAct) (rest : List PowerAct) (idle : s.busy = false) :
      s.Moves { s.powerAct a with sess := { s.sess with power := rest } }
  | identified (idle : s.busy = false) : s.Moves ((s.lookAt .resSig).identified (s.portRead .resSig))
  | advance (idle : s.busy = false) : s.Moves { s with sess := s.sess.advance }

/-- A word that answers a next state runs the instruction it decodes to. -/
theorem fetch_eq_next {w : CmdWord} (h : fetch w s = .next t) : ∃ i, decode w = .ok i ∧ exec i s = .next t := by
  unfold fetch at h
  split at h
  next i hi => exact ⟨i, hi, h⟩
  next => cases h

theorem hostStep_moves (idle : s.busy = false) (h : hostStep s = .next t) : s.Moves t := by
  unfold hostStep at h
  split at h
  case h_1 => obtain ⟨i, -, run⟩ := fetch_eq_next h; exact .hostCommand idle run
  case h_2 p acts _ => cases h; exact .read p acts idle
  case h_3 m acts _ => cases h; exact .request m acts idle
  case h_4 a acts _ => cases h; exact .hostPower a acts idle
  case h_7 => obtain ⟨i, -, run⟩ := fetch_eq_next h; exact .hostCommand idle run
  all_goals cases h; exact .cycle

theorem sessionStep_moves (idle : s.busy = false) (h : sessionStep s = .next t) : s.Moves t := by
  unfold sessionStep at h
  split at h
  next a rest _ => cases h; exact .sessionPower a rest idle
  next =>
    split at h
    next => exact .sessionCommand idle h
    next =>
      split at h
      · cases h; exact .identified idle
      · cases h; exact .advance idle

theorem busyStep_eq_next (h : busyStep s = .next t) : t = s.cycle := by
  unfold busyStep at h
  split at h
  case h_1 => cases h
  all_goals cases h; rfl

theorem idleStep_moves (idle : s.busy = false) (h : idleStep s = .next t) : s.Moves t := by
  unfold idleStep at h
  split at h
  · exact hostStep_moves idle h
  · split at h
    · exact hostStep_moves idle h
    · exact sessionStep_moves idle h

/-- What a step that answers a next state did. -/
theorem step_eq_next (h : step s = .next t) : s.mark = none ∧ s.Moves t := by
  unfold step at h
  split at h
  · cases h
  next hm =>
    refine ⟨hm, ?_⟩
    unfold liveStep at h
    split at h
    · rw [busyStep_eq_next h]; exact .cycle
    next hb => exact idleStep_moves (Bool.eq_false_of_not_eq_true hb) h

/-! ### One cycle -/

/-- What one cycle of `clk` does in the block: `rst` first, else a micro-step of a busy block, whose registers a presented word
leaves alone, else a presented word of an idle block (R66, R114, R122). -/
theorem State.clk_cases (p : Pins) (tick : Bool) (s : State) :
    s.clk p tick = s.resetCycle ∨
    (s.busy = true ∧ (s.clk p tick = s.micro tick ∨ s.clk p tick = (s.presentBusy p.cmdWord).micro tick)) ∨
    (s.busy = false ∧ (s.clk p tick = s ∨ s.clk p tick = s.presentIdle p.cmdWord)) := by
  unfold State.clk
  cases p.rst <;> cases s.busy <;> cases p.cmdValid <;> simp

/-- The clock-low micro-step of a bit position other than the last (R74). -/
theorem clkLowStep_inner (hpos : s.pos ≠ 0) :
    s.clkLowStep = { s.emit (.clkLow s.pos) with sci := false, pos := s.pos - 1, bs := .drive } := by
  unfold State.clkLowStep; exact if_neg hpos

/-! ### One command -/

/-- What every cycle of a busy block keeps holds when the block's cycles end. -/
theorem runFuel_induction {P : State → Prop} (kept : ∀ u, u.busy = true → P u → P u.cycle) :
    ∀ (n : Nat) {u : State}, P u → P (State.runFuel n u)
  | 0, _, hu => hu
  | n + 1, u, hu => by
    unfold State.runFuel
    split
    next hb => exact runFuel_induction kept n (kept u hb hu)
    next => exact hu

/-- The one induction over a command's run: what holds when its word has been accepted and is kept by every cycle of a busy
block holds of the state the instruction answers (R76, R77). -/
theorem exec_induction {P : State → Prop} {i : Instr} (run : exec i s = .next t)
    (accepted : s.busy = false → P (s.accept i.op i.v8 i.a16).envTick)
    (kept : ∀ u, u.busy = true → P u → P u.cycle) : P t := by
  rw [exec_eq_runCommand, runCommand_eq_next] at run
  obtain ⟨idle, rfl, -⟩ := run
  exact runFuel_induction kept _ (accepted idle)

end Sys2Proof.Machine
end

section
/-! SUPPORT. The decoder on an encoded instruction (R51, R52, R61), and the statement about a presented word (R53). -/

namespace Sys2Proof.Machine

/-- A WRITE_FUSE word is decoded in the decoder's spelling of its address (R61). -/
theorem decode_writeFuse (addr : Half) (value : Byte) :
    decode (commandWord .writeFuse addr value) = .ok (Instr.canon (.wrfuse addr value)) := by simp [decode]

/-- The decoder gives back an encoded instruction, in its own spelling (R51, R52, R61). -/
theorem decode_encode (i : Instr) : decode (encode i) = .ok i.canon := by
  cases i with
  | wrfuse addr value => exact decode_writeFuse addr value
  | wrlfuse value => exact decode_writeFuse Config.lfuse value
  | wrhfuse value => exact decode_writeFuse Config.hfuse value
  | wrefuse value => exact decode_writeFuse Config.efuse value
  | _ => simp [decode, decodeBare, encode, Instr.op, Instr.a16, Instr.v8, Instr.canon]

/-- Settles O6: a word reaches `fetch` as a level of the ports, or by a host that waits for an idle session. -/
theorem stepRunsTheDecodedInstruction : Obligations.StepRunsTheDecodedInstruction := by
  have presented : ∀ (s : State) (w : CmdWord) (h : List HostAct) (i : Instr), s.mark = none → s.busy = false →
      s.host = .present w :: h → decode w = .ok i → step s = exec i { s with host := h } := by
    intro s w h i hm hb hh hd
    rw [step_idle hm hb, idleStep_portAct (by rw [hh]; rfl), hostStep, hh]
    exact fetch_of_decode hd _
  refine ⟨presented, fun s w h i hm hb hs hh hd => ?_, fun i => ?_⟩
  · rw [step_idle hm hb, idleStep_noSession hs, hostStep, hh]
    exact fetch_of_decode hd _
  · refine presented (State.reset.withFetchWord 32 (encode i).toNat) (encode i) [] i.canon rfl rfl ?_ (decode_encode i)
    have hw : (encode i).toNat % 2 ^ 32 = (encode i).toNat := Nat.mod_eq_of_lt (encode i).isLt
    rw [State.withFetchWord, hw, BitVec.ofNat_toNat, BitVec.setWidth_eq]
    rfl

end Sys2Proof.Machine
end

section
/-! SUPPORT. The register invariant: it is about the block at rest, or about one phase of the bit channel at a time, and each
micro-step carries it to the next phase. -/

namespace Sys2Proof.Machine

variable {s t : State}

/-- The registers of the block that the invariant speaks of are the same in both states. -/
structure SameRegisters (s t : State) : Prop where
  cfg : t.cfg = s.cfg
  busy : t.busy = s.busy
  bs : t.bs = s.bs
  op : t.op = s.op
  step : t.step = s.step
  fv : t.fv = s.fv
  fa : t.fa = s.fa
  pos : t.pos = s.pos
  acc : t.acc = s.acc
  sii : t.sii = s.sii
  sdi : t.sdi = s.sdi
  sci : t.sci = s.sci

/-- What touches none of these registers keeps the invariant. -/
theorem State.Inv.congr (h : s.Inv) (k : SameRegisters s t) : t.Inv := by
  obtain ⟨cfg, busy, bs, op, step, fv, fa, pos, acc, sii, sdi, sci⟩ := k
  obtain ⟨h1, h2, h3, h4, h5, h6, h7, h8, h9⟩ := h
  constructor <;> simp only [State.lineNow, cfg, busy, bs, op, step, fv, fa, pos, acc, sii, sdi, sci] <;> assumption

/-- A block at rest satisfies the invariant: all that it says of frames and position is about a busy block. -/
theorem State.AtRest.inv (h : s.AtRest) : s.Inv := by
  obtain ⟨busy, bs, sii, sdi, sci⟩ := h
  constructor <;> simp [busy, bs, sii, sdi, sci]

/-- An idle block of the invariant is at rest. -/
theorem State.Inv.atRest (h : s.Inv) (idle : s.busy = false) : s.AtRest := by
  have bs : s.bs = .idle := by simpa [idle] using h.busy_iff
  have sci : s.sci = false := by simpa [bs] using h.sci_low
  obtain ⟨sii, sdi⟩ := h.lines_rest (.inl bs)
  exact ⟨idle, bs, sii, sdi, sci⟩

/-- A transaction that starts within the sequence with the lines at 0 satisfies the invariant (R67, R68). -/
theorem startEntry_inv (busy : s.busy = true) (hstep : s.step.toNat < seqLen s.op) (sii : s.sii = false)
    (sdi : s.sdi = false) (sci : s.sci = false) : s.startEntry.Inv := by
  have hlen : s.step.toNat < s.seq.length := by rw [State.seq, seqOf_length]; exact hstep
  rw [startEntry_eq (List.getElem?_eq_getElem hlen)]
  constructor <;> simp [busy, hstep, sii, sdi, sci]

theorem accept_inv (h : s.Inv) (idle : s.busy = false) (op : Op) (argV : Byte) (argA : Half) :
    (s.accept op argV argA).Inv := by
  have r := h.atRest idle
  exact startEntry_inv rfl (seqLen_pos op) r.sii r.sdi r.sci

theorem resetCycle_inv (s : State) : s.resetCycle.Inv := by
  unfold State.resetCycle
  split <;> exact State.AtRest.inv ⟨rfl, rfl, rfl, rfl, rfl⟩

theorem presentIdle_inv (h : s.Inv) (idle : s.busy = false) (w : CmdWord) : (s.presentIdle w).Inv := by
  unfold State.presentIdle
  split
  · exact accept_inv h idle _ _ _
  · exact h.congr (by constructor <;> simp)

/-- A micro-step from a busy phase to a busy phase of the same command keeps what the invariant says of the frames and of `step`;
the rest is what it does to the phase, the position and the lines. -/
theorem State.Inv.within (h : s.Inv) (busy : s.busy = true) (k : SameCommand s t) (bs : t.bs ≠ .idle)
    (pos_le : t.pos.toNat ≤ 10) (poll_start : t.bs = .poll → t.pos = 10 ∧ t.acc = 0) (sci_low : t.sci = true → t.bs = .clkl)
    (lines_rest : t.bs = .poll → t.sii = false ∧ t.sdi = false)
    (lines_bit : (t.bs = .sample ∨ t.bs = .clkh ∨ t.bs = .clkl) → (t.sii, t.sdi) = t.lineNow) : t.Inv where
  busy_iff := by simp [k.busy, busy, bs]
  fv_frame _ := by rw [k.fv]; exact h.fv_frame busy
  fa_frame _ := by rw [k.fa]; exact h.fa_frame busy
  pos_le _ := pos_le
  poll_start := poll_start
  step_lt _ := by rw [k.step, k.op]; exact h.step_lt busy
  sci_low := sci_low
  lines_rest hr := lines_rest (hr.resolve_left bs)
  lines_bit := lines_bit

theorem pollStep_inv (h : s.Inv) (busy : s.busy = true) (hb : s.bs = .poll) (tick : Bool) : (s.pollStep tick).Inv := by
  have hbs : (s.pollStep tick).bs = .drive ∨ (s.pollStep tick).bs = .poll := by
    rw [pollStep_bs hb]; split <;> simp
  have sci : s.sci = false := by simpa [hb] using h.sci_low
  refine h.within busy (pollStep_same tick) ?_ ?_ ?_ ?_ ?_ ?_
  · rcases hbs with hbs | hbs <;> simp [hbs]
  · simpa using h.pos_le busy
  · simpa using fun _ => h.poll_start hb
  · simp [sci]
  · simpa using fun _ => h.lines_rest (.inr hb)
  · rcases hbs with hbs | hbs <;> simp [hbs]

theorem driveStep_inv (h : s.Inv) (busy : s.busy = true) (hb : s.bs = .drive) : s.driveStep.Inv := by
  have hbs : s.driveStep.bs = .sample := rfl
  have sci : s.sci = false := by simpa [hb] using h.sci_low
  refine h.within busy (by constructor <;> simp) (by simp [hbs]) ?_ (by simp [hbs]) (by simp [sci]) (by simp [hbs]) ?_
  · simpa using h.pos_le busy
  · simp [State.driveStep, State.lineNow]

theorem sampleStep_inv (h : s.Inv) (busy : s.busy = true) (hb : s.bs = .sample) : s.sampleStep.Inv := by
  have hbs : s.sampleStep.bs = .clkh := rfl
  have sci : s.sci = false := by simpa [hb] using h.sci_low
  refine h.within busy (by constructor <;> simp) (by simp [hbs]) ?_ (by simp [hbs]) (by simp [sci]) (by simp [hbs]) ?_
  · simpa using h.pos_le busy
  · simpa [State.lineNow] using fun _ => h.lines_bit (.inl hb)

theorem clkHighStep_inv (h : s.Inv) (busy : s.busy = true) (hb : s.bs = .clkh) : s.clkHighStep.Inv := by
  have hbs : s.clkHighStep.bs = .clkl := rfl
  refine h.within busy (by constructor <;> simp) (by simp [hbs]) (h.pos_le busy) (by simp [hbs]) (by simp [hbs])
    (by simp [hbs]) ?_
  exact fun _ => h.lines_bit (.inr (.inl hb))

/-- The start bit of both frames is 0, so the last bit position leaves both lines at 0 (R49, R64, R75). -/
theorem State.Inv.lines_last (h : s.Inv) (busy : s.busy = true) (hb : s.bs = .clkl) (hpos : s.pos = 0) :
    s.sii = false ∧ s.sdi = false := by
  have hl := h.lines_bit (.inr (.inr hb))
  rw [State.lineNow, hpos, h.fv_frame busy, h.fa_frame busy, frameBit_frame_last, frameBit_frame_last] at hl
  cases hlb : s.cfg.lineBind <;> simpa [hlb, lineLevels] using hl

/-- The sequencer's advance ends the command at rest, or starts the next transaction of its sequence (R76). -/
theorem sequence_inv (busy : s.busy = true) (bs : s.bs = .idle) (sii : s.sii = false) (sdi : s.sdi = false)
    (sci : s.sci = false) : s.sequence.Inv := by
  unfold State.sequence
  split
  next hlt =>
    rw [State.seq, seqOf_length] at hlt
    have hsucc : (s.step + 1).toNat = s.step.toNat + 1 := by
      have := seqLen_le s.op
      rw [BitVec.toNat_add]; simp; omega
    exact startEntry_inv busy (by simpa only [hsucc] using hlt) sii sdi sci
  next => exact State.AtRest.inv ⟨rfl, bs, sii, sdi, sci⟩

theorem clkLowStep_inv (h : s.Inv) (busy : s.busy = true) (hb : s.bs = .clkl) : s.clkLowStep.Inv := by
  by_cases hpos : s.pos = 0
  · obtain ⟨sii, sdi⟩ := h.lines_last busy hb hpos
    rw [clkLowStep_last hpos]
    exact sequence_inv (by simp [State.txClosed, busy]) (by simp [State.txClosed]) (by simp [State.txClosed, sii])
      (by simp [State.txClosed, sdi]) (by simp [State.txClosed])
  · have hdown : (s.pos - 1).toNat ≤ 10 := by have := h.pos_le busy; bv_omega
    rw [clkLowStep_inner hpos]
    exact h.within busy (by constructor <;> simp) (by simp) hdown (by simp) (by simp) (by simp) (by simp)

/-- Each micro-step keeps the invariant (R66). -/
theorem micro_inv (h : s.Inv) (busy : s.busy = true) (tick : Bool) : (s.micro tick).Inv := by
  unfold State.micro
  cases hb : s.bs with
  | idle => exact h
  | poll => exact pollStep_inv h busy hb tick
  | drive => exact driveStep_inv h busy hb
  | sample => exact sampleStep_inv h busy hb
  | clkh => exact clkHighStep_inv h busy hb
  | clkl => exact clkLowStep_inv h busy hb

theorem clk_inv (h : s.Inv) (p : Pins) (tick : Bool) : (s.clk p tick).Inv := by
  rcases State.clk_cases p tick s with hc | ⟨busy, hc | hc⟩ | ⟨idle, hc | hc⟩ <;> rw [hc]
  · exact resetCycle_inv s
  · exact micro_inv h busy tick
  · exact micro_inv (h.congr (t := s.presentBusy p.cmdWord) (by constructor <;> simp)) busy tick
  · exact h
  · exact presentIdle_inv h idle _

theorem envTick_inv (h : s.Inv) : s.envTick.Inv := h.congr (by constructor <;> rfl)

/-- A change of the agents' lists alone keeps the invariant. -/
theorem State.Inv.withAgents (h : s.Inv) (acts : List HostAct) (c : Session) :
    State.Inv { s with host := acts, sess := c } := h.congr (by constructor <;> rfl)

theorem cycle_inv (h : s.Inv) : s.cycle.Inv := envTick_inv (clk_inv (h.withAgents _ s.sess) _ _)

/-- A whole command keeps the invariant, whatever the host does meanwhile. -/
theorem exec_inv (h : s.Inv) {i : Instr} (run : exec i s = .next t) : t.Inv :=
  exec_induction run (fun idle => envTick_inv (accept_inv h idle _ _ _)) fun _ _ hu => cycle_inv hu

theorem State.Moves.inv (m : s.Moves t) (h : s.Inv) : t.Inv := by
  cases m with
  | cycle => exact cycle_inv h
  | hostCommand _ run => exact exec_inv (h.withAgents _ s.sess) run
  | sessionCommand _ run => exact exec_inv (h.withAgents s.host _) run
  | read => exact h.congr (by constructor <;> simp)
  | request => exact h.withAgents _ _
  | hostPower => exact h.congr (by constructor <;> rfl)
  | sessionPower => exact h.congr (by constructor <;> rfl)
  | identified =>
    unfold State.identified
    split <;> exact h.congr (by constructor <;> simp)
  | advance => exact h.withAgents s.host _

/-- Settles O33: each cycle keeps the invariant, and so does every move of a step. -/
theorem registerInvariantIsKept : Obligations.RegisterInvariantIsKept :=
  ⟨fun _ h => cycle_inv h, fun _ _ h hs => (step_eq_next hs).2.inv h⟩

/-- Settles O32: the block is at rest after reset. -/
theorem registerInvariantHoldsAtReset : Obligations.RegisterInvariantHoldsAtReset :=
  State.AtRest.inv ⟨rfl, rfl, rfl, rfl, rfl⟩

end Sys2Proof.Machine
end

section
/-! SUPPORT. The writers of the result registers (R27): the sinks of a command's sequence are its own, and the command stays
latched as long as it runs. -/

namespace Sys2Proof.Machine

variable {s t : State}

/-- The command whose sequence may hold a sink, or none for the sink that keeps nothing (R56). -/
def Sink.writer : Sink → Option Op
  | .discard => none
  | .tx => some .transact
  | .sig => some .readSig
  | .lf => some .readFuses
  | .hf => some .readFuses
  | .ef => some .readFuses
  | .lock => some .readLock

/-- A result register of `r'` that differs from `r` is one that R27 names beside `op`. -/
structure WrittenOnlyBy (op : Op) (r r' : Results) : Prop where
  tx : op ≠ .transact → r'.tx = r.tx ∧ r'.txValid = r.txValid
  sig : op ≠ .readSig → r'.sig = r.sig ∧ r'.sigValid = r.sigValid
  fuses : op ≠ .readFuses → r'.lfuse = r.lfuse ∧ r'.lfuseValid = r.lfuseValid ∧ r'.hfuse = r.hfuse ∧
    r'.hfuseValid = r.hfuseValid ∧ r'.efuse = r.efuse ∧ r'.efuseValid = r.efuseValid
  lock : op ≠ .readLock → r'.lock = r.lock ∧ r'.lockValid = r.lockValid

theorem WrittenOnlyBy.refl (op : Op) (r : Results) : WrittenOnlyBy op r r := by constructor <;> simp

theorem WrittenOnlyBy.trans {op : Op} {r r' r'' : Results} (h : WrittenOnlyBy op r r') (k : WrittenOnlyBy op r' r'') :
    WrittenOnlyBy op r r'' := by
  constructor <;> intro hop
  · simp [k.tx hop, h.tx hop]
  · simp [k.sig hop, h.sig hop]
  · simp [k.fuses hop, h.fuses hop]
  · simp [k.lock hop, h.lock hop]

/-- The sinks of a command's sequence are its own (R56). -/
theorem seqOf_writer (cfg : Config) (op : Op) (argV : Byte) (argA : Half) :
    ∀ e ∈ seqOf cfg op argV argA, e.sink.writer = none ∨ e.sink.writer = some op := by
  cases op <;> simp [seqOf, sigEntries, fuseEntries, Pair.entry, Sink.writer]

/-- A sink writes its command's registers only (R76). -/
theorem Sink.put_writtenOnlyBy {k : Sink} {op : Op} (h : k.writer = none ∨ k.writer = some op) (rx : Byte)
    (r : Results × Half) : WrittenOnlyBy op r.1 (k.put rx r).1 := by
  cases k <;> constructor <;> simp_all [Sink.writer, Sink.put]

/-- The end of a command writes RES_SIG only, and only for READ_SIG (R76). -/
theorem finishResults_writtenOnlyBy (op : Op) (r : Results × Half) : WrittenOnlyBy op r.1 (finishResults op r) := by
  cases op <;> constructor <;> simp [finishResults]

theorem sinkResult_writtenOnlyBy (s : State) : WrittenOnlyBy s.op s.res s.sinkResult.res := by
  unfold State.sinkResult
  split
  next e he => exact Sink.put_writtenOnlyBy (seqOf_writer _ _ _ _ e (List.mem_of_getElem? he)) s.rx (s.res, s.sigacc)
  next => exact .refl _ _

theorem sequence_writtenOnlyBy (s : State) : WrittenOnlyBy s.op s.res s.sequence.res := by
  unfold State.sequence
  split
  · simpa using WrittenOnlyBy.refl s.op s.res
  · exact finishResults_writtenOnlyBy s.op (s.res, s.sigacc)

/-- The command in progress is latched: no micro-step changes `op` (R23). -/
@[simp] theorem sequence_op (s : State) : s.sequence.op = s.op := by unfold State.sequence; split <;> simp

@[simp] theorem txClosed_op (s : State) : s.txClosed.op = s.op := by simp [State.txClosed]

@[simp] theorem clkLowStep_op (s : State) : s.clkLowStep.op = s.op := by
  by_cases hpos : s.pos = 0
  · simp [clkLowStep_last hpos]
  · simp [clkLowStep_inner hpos]

@[simp] theorem micro_op (tick : Bool) (s : State) : (s.micro tick).op = s.op := by
  unfold State.micro
  split <;> simp

theorem txClosed_writtenOnlyBy (s : State) : WrittenOnlyBy s.op s.res s.txClosed.res := by
  simpa [State.txClosed] using sinkResult_writtenOnlyBy
    { ({ s.emit (.clkLow s.pos) with sci := false } : State).targetFinish.emit
        (.txDone (frameByte s.fv) (frameByte s.fa) (frameByte s.acc)) with rx := frameByte s.acc, bs := .idle }

theorem clkLowStep_writtenOnlyBy (s : State) : WrittenOnlyBy s.op s.res s.clkLowStep.res := by
  by_cases hpos : s.pos = 0
  · rw [clkLowStep_last hpos]
    exact (txClosed_writtenOnlyBy s).trans (by simpa using sequence_writtenOnlyBy s.txClosed)
  · simpa [clkLowStep_inner hpos] using WrittenOnlyBy.refl s.op s.res

/-- Only the clock low that ends a transaction writes a result register (R76). -/
theorem micro_writtenOnlyBy (tick : Bool) (s : State) : WrittenOnlyBy s.op s.res (s.micro tick).res := by
  unfold State.micro
  split
  case h_6 => exact clkLowStep_writtenOnlyBy s
  all_goals simpa using WrittenOnlyBy.refl s.op s.res

/-- A run of the command `op` that found the results `r`: as long as it is busy the command is latched, and no register but its
own has changed. -/
structure InCommand (op : Op) (r : Results) (u : State) : Prop where
  latched : u.busy = true → u.op = op
  written : WrittenOnlyBy op r u.res

variable {op : Op} {r : Results}

theorem InCommand.micro (h : InCommand op r s) (busy : s.busy = true) (tick : Bool) : InCommand op r (s.micro tick) where
  latched _ := by rw [micro_op, h.latched busy]
  written := h.written.trans (h.latched busy ▸ micro_writtenOnlyBy tick s)

/-- `rst` abandons the command and keeps the results (R122). -/
theorem InCommand.resetCycle (h : InCommand op r s) (busy : s.busy = true) : InCommand op r s.resetCycle where
  latched := by simp [State.resetCycle, busy, State.clearRegisters, State.reset]
  written := by simpa [State.resetCycle, busy] using h.written

theorem InCommand.cycle (h : InCommand op r s) (busy : s.busy = true) : InCommand op r s.cycle := by
  have h' : InCommand op r { s with host := (hostPins s.host).2 } := ⟨h.latched, h.written⟩
  have hclk : InCommand op r (State.clk (hostPins s.host).1 s.time.tick { s with host := (hostPins s.host).2 }) := by
    rcases State.clk_cases (hostPins s.host).1 s.time.tick { s with host := (hostPins s.host).2 } with
      hc | ⟨-, hc | hc⟩ | ⟨idle, -⟩
    · rw [hc]; exact h'.resetCycle busy
    · rw [hc]; exact h'.micro busy _
    · have presented : InCommand op r (State.presentBusy (hostPins s.host).1.cmdWord { s with host := (hostPins s.host).2 }) :=
        ⟨h.latched, h.written⟩
      rw [hc]; exact presented.micro busy _
    · exact Bool.noConfusion (busy.symm.trans idle)
  exact ⟨hclk.latched, hclk.written⟩

theorem InCommand.accept (op : Op) (argV : Byte) (argA : Half) (s : State) :
    InCommand op s.res (s.accept op argV argA).envTick where
  latched _ := by simp [State.accept]
  written := by simpa [State.accept] using WrittenOnlyBy.refl op s.res

/-- A whole command writes its own result registers only, whatever the host and the target do meanwhile (R27). -/
theorem exec_writtenOnlyBy {i : Instr} (run : exec i s = .next t) : WrittenOnlyBy i.op s.res t.res :=
  (exec_induction run (fun _ => InCommand.accept _ _ _ s) fun _ busy hu => hu.cycle busy).written

/-- Settles O20, by the induction over the command's run. -/
theorem resultRegistersHaveOneWriter : Obligations.ResultRegistersHaveOneWriter := by
  intro i s t run
  obtain ⟨tx, sig, fuses, lock⟩ := exec_writtenOnlyBy run
  exact ⟨tx, sig, fuses, lock⟩

end Sys2Proof.Machine
end

section
/-! SUPPORT. The host's reads of the ports (R28, R89), and the ports after reset (R31). -/

namespace Sys2Proof.Machine

variable {s : State}

/-- A host read of a port that has no value (R28). -/
theorem hostRead_of_none {p : Port} (h : s.portValue p = none) : hostRead p s = .next { s with
    reads := (p, ((Config.freePort s.draws).setWidth p.width).setWidth 16) :: s.reads,
    faults := p :: s.faults, draws := s.draws + 1 } := by
  rw [hostRead, State.lookAt_of_none h, State.portRead_of_none h]

/-- A host read of a port that has a value (R28). -/
theorem hostRead_of_value {p : Port} {x : Half} (h : s.portValue p = some x) :
    hostRead p s = .next { s with reads := (p, x) :: s.reads } := by
  rw [hostRead, State.lookAt_of_value h, State.portRead_of_value h]

/-- A bit's inverse, as a port shows it. -/
theorem port_not (b : Bool) : (BitVec.ofBool (!b)).zeroExtend 16 = if b then (0 : Half) else 1 := by cases b <;> rfl

/-- Settles O36: the step is the host's read, with the port's value as it was before the action left the list. -/
theorem readingAnUnwrittenResultFaults : Obligations.ReadingAnUnwrittenResultFaults := by
  refine ⟨fun s p h hm hb hs hh => ?_, fun s => ⟨?_, ?_, fun hv => ⟨?_, ?_⟩⟩⟩
  · have hstep : step s = hostRead p { s with host := h } := by
      rw [step_idle hm hb, idleStep_noSession hs, hostStep, hh]
    have hport : State.portValue { s with host := h } p = s.portValue p := State.portValue_congr rfl rfl
    rw [hstep]
    exact ⟨fun hn => hostRead_of_none (hport.trans hn), fun x hx => hostRead_of_value (hport.trans hx)⟩
  · simp [State.portValue]
  · simp [State.portValue]
  · simp only [State.portValue, hv, lb1Prog, port_not, if_true]
  · simp only [State.portValue, hv, lb2Prog, port_not, if_true]

/-- Settles O31. -/
theorem resetStateIsIdleWithNoResults : Obligations.ResetStateIsIdleWithNoResults := by
  refine ⟨rfl, rfl, rfl, rfl, rfl, rfl, rfl, fun p hp => ?_, rfl, rfl⟩
  cases p with
  | busy => exact absurd rfl hp
  | _ => rfl

end Sys2Proof.Machine
end

section
/-! SUPPORT. What each micro-step records, and that nothing the machine does takes an event back or changes a parameter (R8,
R43). -/

namespace Sys2Proof.Machine

variable {s t u : State}

/-! ### The events of the micro-steps -/

@[simp] theorem driveStep_events (s : State) :
    s.driveStep.events = s.events ++ [.drive s.pos s.lineNow.1 s.lineNow.2] := by
  simp [State.driveStep, State.events, State.lineNow]

@[simp] theorem sampleStep_events (s : State) : s.sampleStep.events = s.events ++ [.sample s.pos s.sdo] := by
  simp [State.sampleStep, State.events]

@[simp] theorem clkHighStep_events (s : State) : s.clkHighStep.events = s.events ++ [.clkHigh s.pos] := by
  simp [State.clkHighStep, State.events]

@[simp] theorem txClosed_events (s : State) : s.txClosed.events =
    s.events ++ [.clkLow s.pos, .txDone (frameByte s.fv) (frameByte s.fa) (frameByte s.acc)] := by
  simp [State.txClosed, State.events]

/-- The sequencer records the end of a command and nothing else (R76). -/
theorem sequence_events (s : State) :
    s.sequence.events = s.events ++ if s.step.toNat + 1 < s.seq.length then [] else [.cmdDone s.op] := by
  unfold State.sequence
  split <;> simp [State.events]

/-- The last clock low records the transaction, and the end of the command if it was its last (R75, R76). -/
theorem clkLowStep_events_last (hpos : s.pos = 0) : s.clkLowStep.events = s.events ++
    ([.clkLow s.pos, .txDone (frameByte s.fv) (frameByte s.fa) (frameByte s.acc)] ++
      if s.step.toNat + 1 < s.seq.length then [] else [.cmdDone s.op]) := by
  have step : s.txClosed.step = s.step := by simp [State.txClosed]
  have seq : s.txClosed.seq = s.seq := by simp [State.txClosed, State.seq]
  have op : s.txClosed.op = s.op := by simp
  rw [clkLowStep_last hpos, sequence_events, txClosed_events, step, seq, op, List.append_assoc]

/-- Any other clock low records itself (R74). -/
theorem clkLowStep_events_inner (hpos : s.pos ≠ 0) : s.clkLowStep.events = s.events ++ [.clkLow s.pos] := by
  rw [clkLowStep_inner hpos]
  exact State.emit_events s (.clkLow s.pos)

/-- Acceptance records the command (R53). -/
@[simp] theorem accept_events (s : State) (op : Op) (argV : Byte) (argA : Half) :
    (s.accept op argV argA).events = s.events ++ [.cmdAccept op argV argA] := by
  simp [State.accept, State.events]

/-- Only a command that `rst` abandons is recorded (R107, R122). -/
theorem resetCycle_events (s : State) :
    s.resetCycle.events = s.events ++ if s.busy then [.resetAbort s.op s.step s.pos] else [] := by
  unfold State.resetCycle
  split <;> simp [State.events]

/-- The host's only event is that of an unknown signature (R107, R110). -/
theorem identified_events (sig : Half) (s : State) :
    (s.identified sig).events = s.events ++ if (lookupDevice sig).isNone then [.unknownSignature sig] else [] := by
  unfold State.identified
  split <;> simp [State.events]

/-! ### Append-only -/

/-- `t` has the parameters of `s`, and its trace is that of `s` with events appended. -/
structure State.Extends (s t : State) : Prop where
  events : ∃ new, t.events = s.events ++ new
  cfg : t.cfg = s.cfg

theorem State.Extends.refl (s : State) : s.Extends s := ⟨⟨[], by simp⟩, rfl⟩

theorem State.Extends.trans (h : s.Extends t) (k : t.Extends u) : s.Extends u := by
  obtain ⟨⟨new, hnew⟩, hcfg⟩ := h
  obtain ⟨⟨more, hmore⟩, kcfg⟩ := k
  exact ⟨⟨new ++ more, by rw [hmore, hnew, List.append_assoc]⟩, kcfg.trans hcfg⟩

/-- An update of neither the trace nor the parameters. -/
theorem State.Extends.of_same (ht : t.trace = s.trace) (hc : t.cfg = s.cfg) : s.Extends t :=
  ⟨⟨[], by rw [events_of_trace ht, List.append_nil]⟩, hc⟩

theorem micro_extends (tick : Bool) (s : State) : s.Extends (s.micro tick) := by
  refine ⟨?_, (micro_outside tick s).cfg⟩
  unfold State.micro
  split
  case h_1 => exact ⟨[], by simp⟩
  case h_2 => exact ⟨_, by rw [pollStep_events, List.append_assoc]⟩
  case h_3 => exact ⟨_, driveStep_events s⟩
  case h_4 => exact ⟨_, sampleStep_events s⟩
  case h_5 => exact ⟨_, clkHighStep_events s⟩
  case h_6 =>
    by_cases hpos : s.pos = 0
    · exact ⟨_, clkLowStep_events_last hpos⟩
    · exact ⟨_, clkLowStep_events_inner hpos⟩

theorem resetCycle_extends (s : State) : s.Extends s.resetCycle := by
  refine ⟨⟨_, resetCycle_events s⟩, ?_⟩
  unfold State.resetCycle
  split <;> rfl

theorem accept_extends (s : State) (op : Op) (argV : Byte) (argA : Half) : s.Extends (s.accept op argV argA) :=
  ⟨⟨_, accept_events s op argV argA⟩, (accept_outside s op argV argA).cfg⟩

theorem presentIdle_extends (w : CmdWord) (s : State) : s.Extends (s.presentIdle w) := by
  unfold State.presentIdle
  split
  · exact accept_extends s _ _ _
  · exact ⟨⟨_, by rw [State.refuse_events, State.raise_events]⟩, rfl⟩

theorem clk_extends (p : Pins) (tick : Bool) (s : State) : s.Extends (s.clk p tick) := by
  rcases State.clk_cases p tick s with hc | ⟨-, hc | hc⟩ | ⟨-, hc | hc⟩ <;> rw [hc]
  · exact resetCycle_extends s
  · exact micro_extends tick s
  · have presented : s.Extends (s.presentBusy p.cmdWord) := ⟨⟨_, State.presentBusy_events s p.cmdWord⟩, rfl⟩
    exact presented.trans (micro_extends tick _)
  · exact .refl s
  · exact presentIdle_extends _ s

theorem envTick_extends (s : State) : s.Extends s.envTick := .of_same rfl rfl

theorem cycle_extends (s : State) : s.Extends s.cycle := by
  obtain ⟨new, hcfg⟩ := clk_extends (hostPins s.host).1 s.time.tick { s with host := (hostPins s.host).2 }
  exact ⟨new, hcfg⟩

theorem exec_extends {i : Instr} (run : exec i s = .next t) : s.Extends t :=
  exec_induction run (fun _ => (accept_extends s i.op i.v8 i.a16).trans (envTick_extends _)) fun u _ hu =>
    hu.trans (cycle_extends u)

theorem State.Moves.extends (m : s.Moves t) : s.Extends t := by
  cases m with
  | cycle => exact cycle_extends s
  | hostCommand _ run => have k := exec_extends run; exact ⟨k.events, k.cfg⟩
  | sessionCommand _ run => have k := exec_extends run; exact ⟨k.events, k.cfg⟩
  | read => exact .of_same (by simp) (by simp)
  | identified =>
    refine .trans (.of_same (by simp) (by simp) : s.Extends (s.lookAt .resSig)) ⟨⟨_, identified_events _ _⟩, ?_⟩
    unfold State.identified
    split <;> rfl
  | request => exact .of_same rfl rfl
  | hostPower => exact .of_same rfl rfl
  | sessionPower => exact .of_same rfl rfl
  | advance => exact .of_same rfl rfl

/-- Settles O34: each move of a step appends its events. -/
theorem traceOnlyGrowsAndParametersStay : Obligations.TraceOnlyGrowsAndParametersStay := by
  intro s t run
  obtain ⟨events, cfg⟩ := (step_eq_next run).2.extends
  exact ⟨events, cfg⟩

end Sys2Proof.Machine
end

section
/-! SUPPORT. What can happen to the reference target (R47, R48, R107, R122, R124), said once for the cycles, the commands and
the steps; and what the block reads from it at SDO (R46, R48). -/

namespace Sys2Proof.Machine

variable {s t : State} {r : RefTarget}

/-! ### What happens to the target in one operation -/

@[simp] theorem Target.onReference_reference (f : RefTarget → RefTarget) (r : RefTarget) :
    Target.onReference f (.reference r) = .reference (f r) := rfl

/-- The drive of the first bit position is what the target sees begin (R48). -/
theorem driveStep_target (s : State) : s.driveStep.target =
    if s.pos = 10 then s.target.onReference (RefTarget.begin s.rails.powered) else s.target := by
  unfold State.driveStep State.targetBegin
  split <;> rfl

@[simp] theorem sequence_target (s : State) : s.sequence.target = s.target := by
  unfold State.sequence
  split <;> simp

/-- The clock low of the last bit position is what the target sees end (R47). -/
theorem txClosed_target (s : State) : s.txClosed.target =
    s.target.onReference fun t => t.finish (frameByte s.fv) (frameByte s.fa) s.draws := by
  simp [State.txClosed, State.targetFinish]

theorem clkLowStep_target (s : State) : s.clkLowStep.target =
    if s.pos = 0 then s.target.onReference (fun t => t.finish (frameByte s.fv) (frameByte s.fa) s.draws) else s.target := by
  by_cases hpos : s.pos = 0
  · rw [if_pos hpos, clkLowStep_last hpos, sequence_target, txClosed_target]
  · rw [if_neg hpos, clkLowStep_inner hpos, State.emit_target]

theorem resetCycle_target (s : State) : s.resetCycle.target =
    if s.busy then s.target.onReference (fun t => t.abort s.draws) else s.target := by
  unfold State.resetCycle
  split <;> simp

theorem envTick_target (s : State) :
    s.envTick.target = if s.time.tick then s.target.onReference RefTarget.onTick else s.target := rfl

@[simp] theorem accept_target (s : State) (op : Op) (argV : Byte) (argA : Half) :
    (s.accept op argV argA).target = s.target := by simp [State.accept]

@[simp] theorem presentIdle_target (w : CmdWord) (s : State) : (s.presentIdle w).target = s.target := by
  unfold State.presentIdle
  split <;> simp

@[simp] theorem powerAct_target (a : PowerAct) (s : State) :
    (s.powerAct a).target = s.target.onReference fun t => t.onPower a s.rails.stage s.draws := rfl

@[simp] theorem identified_target (sig : Half) (s : State) : (s.identified sig).target = s.target := by
  unfold State.identified
  split <;> simp

/-! ### What a reference target keeps -/

/-- A property of reference targets that neither a transaction, nor time, nor an `rst` ends. -/
structure RefTarget.Lasts (P : RefTarget → Prop) : Prop where
  begins : ∀ (powered : Bool) (r : RefTarget), P r → P (r.begin powered)
  finishes : ∀ (v a : Byte) (n : Nat) (r : RefTarget), P r → P (r.finish v a n)
  ticks : ∀ r : RefTarget, P r → P r.onTick
  aborts : ∀ (n : Nat) (r : RefTarget), P r → P (r.abort n)

/-- The target is a reference target with the property. -/
def Target.Has (P : RefTarget → Prop) (x : Target) : Prop := ∃ r, x = .reference r ∧ P r

variable {P : RefTarget → Prop}

theorem Target.Has.onReference {x : Target} (h : x.Has P) {f : RefTarget → RefTarget} (hf : ∀ r, P r → P (f r)) :
    (x.onReference f).Has P := by
  obtain ⟨r, rfl, hr⟩ := h
  exact ⟨f r, rfl, hf r hr⟩

theorem micro_keeps (lasts : RefTarget.Lasts P) (tick : Bool) (h : s.target.Has P) : (s.micro tick).target.Has P := by
  unfold State.micro
  split
  case h_1 => exact h
  case h_2 => simpa using h
  case h_3 =>
    rw [driveStep_target]
    split
    · exact h.onReference (lasts.begins _)
    · exact h
  case h_4 => simpa using h
  case h_5 => exact h
  case h_6 =>
    rw [clkLowStep_target]
    split
    · exact h.onReference (lasts.finishes _ _ _)
    · exact h

theorem clk_keeps (lasts : RefTarget.Lasts P) (p : Pins) (tick : Bool) (h : s.target.Has P) :
    (s.clk p tick).target.Has P := by
  rcases State.clk_cases p tick s with hc | ⟨-, hc | hc⟩ | ⟨-, hc | hc⟩ <;> rw [hc]
  · rw [resetCycle_target]
    split
    · exact h.onReference (lasts.aborts _)
    · exact h
  · exact micro_keeps lasts tick h
  · exact micro_keeps (s := s.presentBusy p.cmdWord) lasts tick h
  · exact h
  · rw [presentIdle_target]; exact h

theorem envTick_keeps (lasts : RefTarget.Lasts P) (h : s.target.Has P) : s.envTick.target.Has P := by
  rw [envTick_target]
  split
  · exact h.onReference lasts.ticks
  · exact h

theorem cycle_keeps (lasts : RefTarget.Lasts P) (h : s.target.Has P) : s.cycle.target.Has P :=
  envTick_keeps lasts (clk_keeps (s := { s with host := (hostPins s.host).2 }) lasts _ _ h)

theorem exec_keeps (lasts : RefTarget.Lasts P) {i : Instr} (run : exec i s = .next t) (h : s.target.Has P) :
    t.target.Has P :=
  exec_induction (P := fun u => u.target.Has P) run (fun _ => envTick_keeps lasts (by rw [accept_target]; exact h))
    fun _ _ hu => cycle_keeps lasts hu

/-- A move of the system keeps a property that lasts, where the property outlasts the power action that the move may be. -/
theorem State.Moves.keeps (lasts : RefTarget.Lasts P) (m : s.Moves t)
    (powers : ∀ a : PowerAct, t.rails = s.rails.act a → ∀ r : RefTarget, P r → P (r.onPower a s.rails.stage s.draws))
    (h : s.target.Has P) : t.target.Has P := by
  cases m with
  | cycle => exact cycle_keeps lasts h
  | hostCommand _ run => exact exec_keeps lasts run h
  | sessionCommand _ run => exact exec_keeps lasts run h
  | read => simpa using h
  | request => exact h
  | hostPower a => exact h.onReference (powers a rfl)
  | sessionPower a => exact h.onReference (powers a rfl)
  | identified => simpa using h
  | advance => exact h

/-! ### The loss of step of a busy target (R48) -/

theorem RefTarget.desync_lasts : RefTarget.Lasts fun r => r.sync = false where
  begins _ _ h := by simp [h]
  finishes _ _ _ _ h := by simp [h]
  ticks _ h := h
  aborts _ _ h := h

/-- Settles O55: no operation on a reference target sets `sync`, a power action and an abort among them. -/
theorem lossOfStepOfABusyTargetIsForGood : Obligations.LossOfStepOfABusyTargetIsForGood := by
  intro s r htarget hsync
  have h : s.target.Has fun r => r.sync = false := ⟨r, htarget, hsync⟩
  exact ⟨cycle_keeps RefTarget.desync_lasts h, fun _ _ run => exec_keeps RefTarget.desync_lasts run h,
    fun _ run => (step_eq_next run).2.keeps RefTarget.desync_lasts (fun _ _ _ hr => by simp [hr]) h⟩

/-- Settles O41: the cycle is the first drive, and after it at most a tick. -/
theorem transactionOnABusyTargetLosesStep : Obligations.TransactionOnABusyTargetLosesStep := by
  intro s r busy hb hpos quiet htarget hbusy
  have driven : s.cycle.target = if s.time.tick then .reference (r.begin s.rails.powered).onTick
      else .reference (r.begin s.rails.powered) := by
    rw [cycle_quiet quiet busy, envTick_target, (micro_outside _ _).time]
    simp [State.micro, hb, driveStep_target, hpos, htarget]
  have desync : (r.begin s.rails.powered).sync = false := by simp [hbusy]
  rw [driven]
  split
  · exact ⟨_, rfl, desync, rfl, rfl, rfl, rfl, rfl, rfl, rfl⟩
  · exact ⟨_, rfl, desync, rfl, rfl, rfl, rfl, rfl, rfl, rfl⟩

/-! ### Power-down (I4) -/

/-- VCC off leaves the rails without power, whatever the stage was (R124). -/
theorem Rails.act_vccOff (q : Rails) : q.act .vccOff = { q with vcc := false, stage := .off } := by
  obtain ⟨vcc, high, input, stage⟩ := q
  cases stage <;> rfl

/-- A target that is not busy keeps its storage over a power-down. -/
theorem RefTarget.powerDown_of_idle (h : r.busyLeft = 0) (n : Nat) : r.powerDown n = r.initial n := by
  simp [RefTarget.powerDown, h]

/-- Settles O52: the step is the host's power action. -/
theorem powerDownEndsTheLossOfStep : Obligations.PowerDownEndsTheLossOfStep := by
  intro s r h unmarked idle noSession hhost htarget
  have hstep : step s = .next (State.powerAct .vccOff { s with host := h }) := by
    rw [step_idle unmarked idle, idleStep_noSession noSession, hostStep, hhost]
  have rails : (State.powerAct .vccOff { s with host := h }).rails = { s.rails with vcc := false, stage := .off } :=
    Rails.act_vccOff s.rails
  refine ⟨_, r.powerDown s.draws, hstep, ?_, rfl, RefTarget.powerDown_sync r s.draws, rfl, rfl, ?_, ?_, fun hidle => ?_⟩
  · simp [htarget, RefTarget.onPower]
  · rw [rails]
  · rw [rails]; rfl
  · rw [RefTarget.powerDown_of_idle hidle]
    exact ⟨rfl, rfl, rfl, rfl, rfl, rfl, rfl⟩

/-! ### SDO -/

theorem sdo_of_given {b : Bool} (h : s.sdoGiven = some b) : s.sdo = b := by rw [State.sdo, h]

theorem sdo_of_free (h : s.sdoGiven = none) : s.sdo = s.freeLevel := by rw [State.sdo, h]

/-- Without a right power-up and the response line an input no target's level reaches the block (R124, R128). -/
theorem sdoGiven_not_ready (h : s.rails.ready = false) : s.sdoGiven = none := by
  simp [State.sdoGiven, Target.level, h]

theorem sdoGiven_poll (hr : s.rails.ready = true) (hb : s.bs = .poll) (ht : s.target = .reference r) :
    s.sdoGiven = some r.pollLevel := by simp [State.sdoGiven, Target.level, hr, hb, ht]

theorem sdoGiven_sample (hr : s.rails.ready = true) (hb : s.bs = .sample) (ht : s.target = .reference r) :
    s.sdoGiven = r.bitLevel (frameByte s.fa) s.pos := by simp [State.sdoGiven, Target.level, hr, hb, ht]

/-- A response bit of a target out of step (R48, I4). -/
theorem RefTarget.bitLevel_outOfStep {a : Byte} {pos : Nibble} (hlo : 2 ≤ pos.toNat) (hhi : pos.toNat ≤ 9)
    (h : r.inStep = false) : r.bitLevel a pos = none := by simp [RefTarget.bitLevel, hlo, hhi, h]

/-- A response bit of a target in step that is not busy (R46). -/
theorem RefTarget.bitLevel_response {a : Byte} {pos : Nibble} (hlo : 2 ≤ pos.toNat) (hhi : pos.toNat ≤ 9)
    (h : r.inStep = true) (hidle : r.busyLeft = 0) :
    r.bitLevel a pos = (r.response a).map fun R => R.getLsbD (pos.toNat - 2) := by
  simp [RefTarget.bitLevel, hlo, hhi, h, hidle]

/-- The samples that carry no response bit (R48; log 19). -/
theorem RefTarget.bitLevel_other {a : Byte} {pos : Nibble} (h : ¬(2 ≤ pos.toNat ∧ pos.toNat ≤ 9)) :
    r.bitLevel a pos = if r.busyLeft = 0 then none else some false := by
  rw [RefTarget.bitLevel, if_neg fun hp => h ⟨hp.1, hp.2.1⟩, if_neg h]
  simp

/-- Settles O40: sample `j` is taken at bit position `10 - j`. -/
theorem referenceTargetAnswersBitByBit : Obligations.ReferenceTargetAnswersBitByBit := by
  intro s r htarget
  refine ⟨fun hr => sdo_of_free (sdoGiven_not_ready hr), fun hr hb => ?_, fun hr hb j hj hpos => ?_⟩
  · rw [sdo_of_given (sdoGiven_poll hr hb htarget)]; rfl
  have given := sdoGiven_sample hr hb htarget
  have position : s.pos.toNat = 10 - j := by rw [hpos, BitVec.toNat_ofNat]; omega
  refine ⟨fun h1 h8 hout => ?_, fun h1 h8 hin hidle => ?_, fun hother => ?_⟩
  · exact sdo_of_free (given.trans (RefTarget.bitLevel_outOfStep (by omega) (by omega) hout))
  · rw [RefTarget.bitLevel_response (by omega) (by omega) hin hidle, position] at given
    constructor
    · intro R hR
      rw [hR] at given
      rw [sdo_of_given given, show 10 - j - 2 = 8 - j by omega]
    · intro hnone
      rw [hnone] at given
      exact sdo_of_free given
  · rw [RefTarget.bitLevel_other (by omega)] at given
    split at given
    next hidle => rw [if_pos hidle, sdo_of_free given]
    next hbusy => rw [if_neg hbusy, sdo_of_given given]

end Sys2Proof.Machine
end

section
/-! SUPPORT. What the events of a whole command show: its transactions and its clock pulses (R36, R44, R64). -/

namespace Sys2Proof.Machine

variable {s t : State} {op : Op} {argV : Byte} {argA : Half} {ts : List TxRecord}

/-- The events a command adds to the trace (R43, R76). -/
def commandEvents (cfg : Config) (op : Op) (argV : Byte) (argA : Half) (ts : List TxRecord) : List Event :=
  [.cmdAccept op argV argA] ++ seqEvents cfg.lineBind op (seqOf cfg op argV argA) ts ++ [.cmdDone op]

theorem CommandRun.events_eq (h : CommandRun op argV argA s t ts) :
    t.events = s.events ++ commandEvents s.cfg op argV argA ts := by
  rw [h.events, commandEvents]; simp

theorem txView_append (xs ys : List Event) : txView (xs ++ ys) = txView xs ++ txView ys := List.filterMap_append ..

theorem txView_flatMap {α : Type} (l : List α) (f : α → List Event) :
    txView (l.flatMap f) = l.flatMap fun x => txView (f x) := List.filterMap_flatMap ..

/-! ### One transaction -/

@[simp] theorem txView_pollEvents (op : Op) (k w : Nat) (en : PollEnd) : txView (pollEvents op k w en) = [] := by
  cases en <;> simp [txView, pollEvents]

@[simp] theorem txView_bitsEvents (b : LineBind) (v a : Byte) (bits : List Bool) : txView (bitsEvents b v a bits) = [] := by
  induction bits using List.reverseRecOn with
  | nil => rfl
  | append_singleton bits bit ih => rw [bitsEvents_append, txView_append, ih]; rfl

/-- A transaction shows as one (value, address, result) (R44). -/
theorem txView_txEvents (b : LineBind) (op : Op) (k : Nat) (v a : Byte) (x : TxRecord) :
    txView (TxRecord.events b op k v a x) = [(v, a, x.result)] := by
  rw [TxRecord.events, txView_append, txView_append, txView_pollEvents, txView_bitsEvents]
  rfl

@[simp] theorem countP_clkHigh_pollEvents (op : Op) (k w : Nat) (en : PollEnd) :
    (pollEvents op k w en).countP Event.isClkHigh = 0 := by
  cases en <;> simp [pollEvents, Event.isClkHigh]

/-- One clock pulse for each bit position (R64). -/
theorem countP_clkHigh_bitsEvents (b : LineBind) (v a : Byte) (bits : List Bool) :
    (bitsEvents b v a bits).countP Event.isClkHigh = bits.length := by
  induction bits using List.reverseRecOn with
  | nil => rfl
  | append_singleton bits bit ih =>
    rw [bitsEvents_append, List.countP_append, ih, List.length_append]; rfl

theorem countP_clkHigh_txEvents (b : LineBind) (op : Op) (k : Nat) (v a : Byte) (x : TxRecord) :
    (TxRecord.events b op k v a x).countP Event.isClkHigh = x.bits.length := by
  simp [TxRecord.events, countP_clkHigh_bitsEvents, Event.isClkHigh]

/-! ### A sequence of transactions -/

/-- Where the index does not matter it can be left out. -/
theorem flatMap_zipIdx {α β : Type} {f : α × Nat → List β} {g : α → List β} (h : ∀ x k, f (x, k) = g x) (l : List α) :
    l.zipIdx.flatMap f = l.flatMap g := by
  conv_rhs => rw [← List.zipIdx_map_fst 0 l, List.flatMap_map]
  congr 1
  funext x
  exact h x.1 x.2

/-- A command's transactions show in order, each with its record's result (R44). -/
theorem txView_seqEvents (b : LineBind) (op : Op) (es : List RomEntry) (ts : List TxRecord) :
    txView (seqEvents b op es ts) = seqView es ts := by
  rw [seqEvents, txView_flatMap, seqView, List.map_eq_flatMap]
  exact flatMap_zipIdx (fun p k => txView_txEvents b op k p.1.value p.1.addr p.2) _

/-- A command's clock pulses are those of its transactions (R64). -/
theorem countP_clkHigh_seqEvents (b : LineBind) (op : Op) (es : List RomEntry) (ts : List TxRecord)
    (h : ∀ x ∈ ts, x.bits.length = 11) :
    (seqEvents b op es ts).countP Event.isClkHigh = 11 * (es.zip ts).length := by
  have each : ∀ p ∈ (es.zip ts).zipIdx,
      (TxRecord.events b op p.2 p.1.1.value p.1.1.addr p.1.2).countP Event.isClkHigh = 11 := by
    intro p hp
    rw [countP_clkHigh_txEvents]
    exact h _ (List.of_mem_zip (List.fst_mem_of_mem_zipIdx hp)).2
  have counts := List.map_congr_left (g := fun _ => 11) each
  rw [seqEvents, List.countP_flatMap]
  exact (congrArg List.sum counts).trans (by simp [mul_comm])

theorem txView_commandEvents (cfg : Config) (op : Op) (argV : Byte) (argA : Half) (ts : List TxRecord) :
    txView (commandEvents cfg op argV argA ts) = seqView (seqOf cfg op argV argA) ts := by
  rw [commandEvents, txView_append, txView_append, txView_seqEvents]
  simp [txView]

/-- What every instruction does from a state that is ready for it (`runCommand_completes`). -/
theorem exec_completes (i : Instr) (h : s.Ready) :
    ∃ t ts, exec i s = .next t ∧ t.AtRest ∧ CommandRun i.op i.v8 i.a16 s t ts ∧ SameOutside s t ∧
      hostQuiet t.host = true ∧ t.time.fair = true ∧ (portActFirst s.host = false → t.host = s.host) :=
  exec_eq_runCommand i s ▸ runCommand_completes i.op i.v8 i.a16 h

/-- Settles O18: a completed command has one record for each entry of its sequence, with 11 samples. -/
theorem transactionCountsAreFixed : Obligations.TransactionCountsAreFixed := by
  refine ⟨⟨rfl, rfl, rfl, rfl, rfl, rfl⟩, fun i s ready => ?_⟩
  obtain ⟨t, ts, run, -, command, -⟩ := exec_completes i ready
  have entries : ((seqOf s.cfg i.op i.v8 i.a16).zip ts).length = seqLen i.op := by
    rw [List.length_zip, command.records, seqOf_length, min_self]
  refine ⟨t, _, run, command.events_eq, ?_, ?_⟩
  · rw [txView_commandEvents, seqView, List.length_map, entries]
  · rw [commandEvents, List.countP_append, List.countP_append, countP_clkHigh_seqEvents _ _ _ _ command.samples, entries]
    simp [Event.isClkHigh]

end Sys2Proof.Machine
end

section
/-! SUPPORT. What a run of transactions hears from a reference target in step (R46, R47): as long as no poll times out, each
transaction returns the response of a target that has seen the transactions before it. The statement is about the transaction
view of the trace (R44), so it holds of every command. -/

namespace Sys2Proof.Machine

variable {s t : State} {r r₀ : RefTarget}

/-! ### The reference target at the transaction level -/

/-- A reference target without its busy time: what its answers depend on (R46). -/
def RefTarget.rested (r : RefTarget) : RefTarget := { r with busyLeft := 0, busyTimes := [] }

/-- A reference target after a transaction, as far as its answers depend on it (R47). -/
def RefTarget.seen (r : RefTarget) (v a : Byte) : RefTarget := (r.rested.finish v a 0).rested

/-- A reference target after the transactions of a view. -/
def RefTarget.seenAll (r : RefTarget) (view : List (Byte × Byte × Byte)) : RefTarget :=
  view.foldl (fun r x => r.seen x.1 x.2.1) r

/-- Each transaction of the view returned the response of the target as the ones before it left it; nothing is said of a
transaction that has none (R46). -/
def RefTarget.Answered : RefTarget → List (Byte × Byte × Byte) → Prop
  | _, [] => True
  | r, x :: view => (∀ R, r.response x.2.1 = some R → x.2.2 = R) ∧ (r.seen x.1 x.2.1).Answered view

theorem RefTarget.answered_snoc (x : Byte × Byte × Byte) : ∀ (view : List (Byte × Byte × Byte)) (r : RefTarget),
    r.Answered (view ++ [x]) ↔ r.Answered view ∧ ∀ R, (r.seenAll view).response x.2.1 = some R → x.2.2 = R
  | [], r => by simp [RefTarget.Answered, RefTarget.seenAll]
  | y :: view, r => by
    simp only [List.cons_append, RefTarget.Answered, RefTarget.answered_snoc x view, and_assoc]
    rfl

theorem RefTarget.seenAll_snoc (r : RefTarget) (view : List (Byte × Byte × Byte)) (x : Byte × Byte × Byte) :
    r.seenAll (view ++ [x]) = (r.seenAll view).seen x.1 x.2.1 := by simp [RefTarget.seenAll]

theorem RefTarget.rested_cmd (r : RefTarget) : r.rested.cmd = r.cmd := rfl

theorem RefTarget.rested_prev (r : RefTarget) : r.rested.prev = r.prev := rfl

theorem RefTarget.latch_rested (r : RefTarget) (v a : Byte) : r.rested.latch v a = (r.latch v a).rested := by
  unfold RefTarget.latch
  repeat (first | rfl | split)

@[simp] theorem RefTarget.startBusy_rested (r : RefTarget) (n : Nat) : (r.startBusy n).rested = r.rested := by
  unfold RefTarget.startBusy
  split <;> rfl

/-- The busy time decides nothing that a transaction stores (R47). -/
theorem RefTarget.mutate_rested (r : RefTarget) (a : Byte) (m n : Nat) :
    (r.rested.mutate a m).rested = (r.mutate a n).rested := by
  unfold RefTarget.mutate
  rw [RefTarget.rested_cmd, RefTarget.rested_prev]
  split_ifs
  iterate 4 · rw [RefTarget.startBusy_rested, RefTarget.startBusy_rested]; rfl
  rfl

theorem RefTarget.finish_rested (h : r.inStep = true) (v a : Byte) (n : Nat) :
    (r.finish v a n).rested = r.rested.seen v a := by
  have stored : ((r.latch v a).mutate a (Config.freeBusy n)).rested =
      ((r.rested.latch v a).mutate a (Config.freeBusy 0)).rested := by
    rw [RefTarget.latch_rested, RefTarget.mutate_rested]
  have h' : r.rested.rested.inStep = true := h
  rw [RefTarget.seen, RefTarget.finish, RefTarget.finish, if_pos h, if_pos h']
  exact congrArg (fun x : RefTarget => { x with prev := some a }) stored

@[simp] theorem RefTarget.finish_inStep (v a : Byte) (n : Nat) : (r.finish v a n).inStep = r.inStep := by
  simp [RefTarget.inStep]

/-- A powered target in step that is not busy is not touched by the first bit position (R48). -/
theorem RefTarget.begin_of_ready (h : r.inStep = true) (hidle : r.busyLeft = 0) : r.begin true = r := by
  obtain ⟨⟩ := r
  simp_all [RefTarget.begin, RefTarget.inStep]

/-! ### The samples of a response -/

/-- With `q` samples still to come, the accumulator holds the bits of the response `R` that have been sampled (R62, R63). -/
def Sampled (R : Byte) (acc : Frame) (q : Nat) : Prop :=
  ∀ i, 2 ≤ i + q → i + q ≤ 9 → acc.getLsbD i = R.getLsbD (i + q - 2)

theorem shiftIn_getLsbD (acc : Frame) (b : Bool) (i : Nat) (h : i < 11) :
    (shiftIn acc b).getLsbD i = if i = 0 then b else acc.getLsbD (i - 1) := by
  cases i with
  | zero => simp [Machine.shiftIn]
  | succ i => simpa [Machine.shiftIn] using fun _ => h

/-- Before the first sample nothing of the response is there. -/
theorem Sampled.start (R : Byte) (acc : Frame) : Sampled R acc 11 := fun i _ _ => by omega

/-- The sample of bit `q - 2` of the response is shifted in (R46, R72). -/
theorem Sampled.shiftIn {R : Byte} {acc : Frame} {q : Nat} {b : Bool} (h : Sampled R acc (q + 1))
    (hb : 2 ≤ q → q ≤ 9 → b = R.getLsbD (q - 2)) : Sampled R (shiftIn acc b) q := by
  intro i hlo hhi
  rw [shiftIn_getLsbD _ _ _ (by omega)]
  split
  next hi =>
    subst hi
    rw [hb (by omega) (by omega), Nat.zero_add]
  next hi =>
    rw [h (i - 1) (by omega) (by omega)]
    congr 1
    omega

/-- With all samples taken the result is the response (R46, R75). -/
theorem Sampled.frameByte {R : Byte} {acc : Frame} (h : Sampled R acc 0) : frameByte acc = R := by
  apply BitVec.eq_of_getLsbD_eq
  intro i hi
  simp [Machine.frameByte, hi, h (2 + i) (by omega) (by omega)]

/-! ### A run on a target in step -/

/-- With `q` samples of the present transaction still to come, the target is not busy and what has been sampled is its
response, if it has one. -/
def Sampling (r : RefTarget) (u : State) (q : Nat) : Prop :=
  r.busyLeft = 0 ∧ ∀ R, r.response (frameByte u.fa) = some R → Sampled R u.acc q

/-- How the present transaction stands with a target: in each phase, the samples it has still to take. -/
def Hearing (r : RefTarget) (u : State) : Prop :=
  match u.bs with
  | .idle => True
  | .poll => u.pos = 10
  | .drive => Sampling r u (u.pos.toNat + 1)
  | .sample => Sampling r u (u.pos.toNat + 1)
  | .clkh => Sampling r u u.pos.toNat
  | .clkl => Sampling r u u.pos.toNat

/-- A run has reached `u` with the target `r` in step, which before the events `new` was `r₀`. -/
structure Heard (r₀ : RefTarget) (new : List Event) (u : State) (r : RefTarget) : Prop where
  target : u.target = .reference r
  inStep : r.inStep = true
  seen : r.rested = r₀.rested.seenAll (txView new)
  answered : r₀.rested.Answered (txView new)
  hearing : Hearing r u

/-- A run from `s` with a powered-up target `r₀` in step has reached `u`: the target has been in step and has answered all
the transactions, if no poll has timed out. -/
structure OnTarget (s : State) (r₀ : RefTarget) (u : State) : Prop where
  ready : u.rails.ready = true
  quiet : hostQuiet u.host = true
  heard : ∃ new, u.events = s.events ++ new ∧ (new.any Event.isPollTimeout = false → ∃ r, Heard r₀ new u r)

variable {new : List Event}

/-- What no sampling has touched goes on being heard. -/
theorem Heard.append (h : Heard r₀ new s r) {evs : List Event} (hview : txView evs = []) (target : t.target = s.target)
    (hearing : Hearing r t) : Heard r₀ (new ++ evs) t r where
  target := target.trans h.target
  inStep := h.inStep
  seen := by rw [txView_append, hview, List.append_nil]; exact h.seen
  answered := by rw [txView_append, hview, List.append_nil]; exact h.answered
  hearing := hearing

/-- A poll that does not time out ends only when the target is not busy (R48, R69). -/
theorem Heard.poll (h : Heard r₀ new s r) (ready : s.rails.ready = true) (hb : s.bs = .poll)
    (inTime : s.sdo = true ∨ s.pollT < s.cfg.tPoll) (tick : Bool) : Hearing r (s.pollStep tick) := by
  have pos : s.pos = 10 := by simpa only [Hearing, hb] using h.hearing
  have level : s.sdo = decide (r.busyLeft = 0) := sdo_of_given (sdoGiven_poll ready hb h.target)
  have hbs := pollStep_bs hb tick
  by_cases hs : s.sdo = true
  · rw [if_pos (.inl hs)] at hbs
    have idle : r.busyLeft = 0 := by simpa [hs] using level
    simp only [Hearing, hbs, State.pollStep_pos, pos]
    exact ⟨idle, fun R _ => Sampled.start R _⟩
  · have running := inTime.resolve_left hs
    rw [if_neg (not_or.mpr ⟨hs, by omega⟩)] at hbs
    simpa only [Hearing, hbs, State.pollStep_pos] using pos

theorem Heard.drive (h : Heard r₀ new s r) (ready : s.rails.ready = true) (hb : s.bs = .drive) :
    Heard r₀ (new ++ [.drive s.pos s.lineNow.1 s.lineNow.2]) s.driveStep r := by
  have sampling : Sampling r s (s.pos.toNat + 1) := by simpa only [Hearing, hb] using h.hearing
  have powered : s.rails.powered = true := by simp_all [Rails.ready]
  refine h.append rfl ?_ (by simpa [Hearing, Sampling, State.driveStep] using sampling)
  rw [driveStep_target, h.target, powered, Target.onReference_reference, RefTarget.begin_of_ready h.inStep sampling.1,
    ite_self]

theorem Heard.sample (h : Heard r₀ new s r) (ready : s.rails.ready = true) (hb : s.bs = .sample) :
    Heard r₀ (new ++ [.sample s.pos s.sdo]) s.sampleStep r := by
  have sampling : Sampling r s (s.pos.toNat + 1) := by simpa only [Hearing, hb] using h.hearing
  obtain ⟨idle, sampled⟩ := sampling
  have sampled' : ∀ R, r.response (frameByte s.fa) = some R → Sampled R (shiftIn s.acc s.sdo) s.pos.toNat := by
    intro R hR
    refine (sampled R hR).shiftIn fun hlo hhi => sdo_of_given ?_
    rw [sdoGiven_sample ready hb h.target, RefTarget.bitLevel_response hlo hhi h.inStep idle, hR]
    rfl
  exact h.append rfl (State.sampleStep_target s) (by simpa [Hearing, Sampling, State.sampleStep] using ⟨idle, sampled'⟩)

theorem Heard.clkHigh (h : Heard r₀ new s r) (hb : s.bs = .clkh) :
    Heard r₀ (new ++ [.clkHigh s.pos]) s.clkHighStep r := by
  have sampling : Sampling r s s.pos.toNat := by simpa only [Hearing, hb] using h.hearing
  exact h.append rfl rfl sampling

theorem Heard.clkLow (h : Heard r₀ new s r) (hb : s.bs = .clkl) (hpos : s.pos ≠ 0) :
    Heard r₀ (new ++ [.clkLow s.pos]) s.clkLowStep r := by
  have sampling : Sampling r s s.pos.toNat := by simpa only [Hearing, hb] using h.hearing
  have down : s.pos.toNat = (s.pos - 1).toNat + 1 := by bv_omega
  rw [down] at sampling
  rw [clkLowStep_inner hpos]
  exact h.append rfl rfl sampling

/-- A transaction that starts stands in its poll at the first bit position (R67). -/
theorem startEntry_hearing (h : s.step.toNat < s.seq.length ∨ s.bs = .idle) (r : RefTarget) : Hearing r s.startEntry := by
  unfold State.startEntry
  split
  next => rfl
  next missing =>
    have idle := h.resolve_left fun hlt => absurd (List.getElem?_eq_none_iff.mp missing) (by omega)
    simp [Hearing, idle]

theorem sequence_hearing (hb : s.bs = .idle) (r : RefTarget) : Hearing r s.sequence := by
  unfold State.sequence
  split
  · refine startEntry_hearing (.inr ?_) r
    exact hb
  · simp [Hearing, hb]

/-- The end of a transaction is what the target has seen, and its result is the target's response (R47, R75). -/
theorem Heard.txEnd (h : Heard r₀ new s r) (hb : s.bs = .clkl) (hpos : s.pos = 0) {more : List Event}
    (hview : txView more = []) :
    Heard r₀ (new ++ ([.clkLow s.pos, .txDone (frameByte s.fv) (frameByte s.fa) (frameByte s.acc)] ++ more)) s.clkLowStep
      (r.finish (frameByte s.fv) (frameByte s.fa) s.draws) := by
  have view : txView (new ++ ([.clkLow s.pos, .txDone (frameByte s.fv) (frameByte s.fa) (frameByte s.acc)] ++ more)) =
      txView new ++ [(frameByte s.fv, frameByte s.fa, frameByte s.acc)] := by
    rw [txView_append, txView_append, hview]; rfl
  have sampling : Sampling r s 0 := by simpa [Hearing, hb, hpos] using h.hearing
  refine ⟨?_, ?_, ?_, ?_, ?_⟩
  · rw [clkLowStep_target, if_pos hpos, h.target]; rfl
  · rw [RefTarget.finish_inStep, h.inStep]
  · rw [view, RefTarget.seenAll_snoc, ← h.seen, RefTarget.finish_rested h.inStep]
  · rw [view, RefTarget.answered_snoc, ← h.seen]
    exact ⟨h.answered, fun R hR => (sampling.2 R hR).frameByte⟩
  · rw [clkLowStep_last hpos]
    exact sequence_hearing (by simp [State.txClosed]) _

/-- One micro-step, by its phase. -/
theorem micro_heard (ready : s.rails.ready = true) (tick : Bool) : ∃ evs, (s.micro tick).events = s.events ++ evs ∧
    (evs.any Event.isPollTimeout = false → ∀ r, Heard r₀ new s r → ∃ r', Heard r₀ (new ++ evs) (s.micro tick) r') := by
  unfold State.micro
  cases hb : s.bs with
  | idle => exact ⟨[], by simp, fun _ r hr => ⟨r, by simpa using hr⟩⟩
  | poll =>
    refine ⟨_, by rw [pollStep_events, List.append_assoc], fun inTime r hr => ⟨r, hr.append ?_ (by simp) ?_⟩⟩
    · split_ifs <;> rfl
    · refine hr.poll ready hb ?_ tick
      by_contra late
      simp only [not_or, Bool.not_eq_true, not_lt] at late
      simp [late.1, late.2, Event.isPollTimeout] at inTime
  | drive => exact ⟨_, driveStep_events s, fun _ r hr => ⟨r, hr.drive ready hb⟩⟩
  | sample => exact ⟨_, sampleStep_events s, fun _ r hr => ⟨r, hr.sample ready hb⟩⟩
  | clkh => exact ⟨_, clkHighStep_events s, fun _ r hr => ⟨r, hr.clkHigh hb⟩⟩
  | clkl =>
    by_cases hpos : s.pos = 0
    · exact ⟨_, clkLowStep_events_last hpos, fun _ r hr => ⟨_, hr.txEnd hb hpos (by split <;> rfl)⟩⟩
    · exact ⟨_, clkLowStep_events_inner hpos, fun _ r hr => ⟨r, hr.clkLow hb hpos⟩⟩

theorem OnTarget.micro (h : OnTarget s r₀ t) (tick : Bool) : OnTarget s r₀ (t.micro tick) := by
  obtain ⟨ready, quiet, new, hev, heard⟩ := h
  obtain ⟨evs, hevs, next⟩ := micro_heard ready tick (new := new)
  have out := micro_outside tick t
  refine ⟨out.rails ▸ ready, out.host ▸ quiet, new ++ evs, by rw [hevs, hev, List.append_assoc], fun inTime => ?_⟩
  rw [List.any_append, Bool.or_eq_false_iff] at inTime
  obtain ⟨r, hr⟩ := heard inTime.1
  exact next inTime.2 r hr

/-- A target that is not busy is not touched by time (R48). -/
theorem Sampling.envTick {q : Nat} (h : Sampling r s q) : Sampling r.onTick s.envTick q :=
  ⟨by simp [RefTarget.onTick, h.1], h.2⟩

theorem Hearing.envTick (h : Hearing r s) : Hearing r.onTick s.envTick := by
  unfold Hearing at h ⊢
  rw [State.envTick_bs]
  cases hb : s.bs <;> simp only [hb] at h ⊢
  case poll => exact h
  all_goals exact h.envTick

/-- A tick brings the target nearer to its rest and changes none of its answers (R48). -/
theorem OnTarget.envTick (h : OnTarget s r₀ t) : OnTarget s r₀ t.envTick := by
  obtain ⟨ready, quiet, new, hev, heard⟩ := h
  refine ⟨ready, quiet, new, hev, fun inTime => ?_⟩
  obtain ⟨r, target, inStep, seen, answered, hearing⟩ := heard inTime
  by_cases tick : t.time.tick = true
  · refine ⟨r.onTick, by rw [envTick_target, if_pos tick, target]; rfl, inStep, seen, answered, ?_⟩
    exact hearing.envTick
  · exact ⟨r, by rw [envTick_target, if_neg tick, target], inStep, seen, answered, hearing⟩

theorem OnTarget.cycle (h : OnTarget s r₀ t) (busy : t.busy = true) : OnTarget s r₀ t.cycle := by
  obtain ⟨ready, quiet, new, hev, heard⟩ := h
  rw [cycle_quiet quiet busy]
  have moved : OnTarget s r₀ { t with host := (hostPins t.host).2 } := by
    refine ⟨ready, (hostPins_quiet quiet).2, new, hev, fun inTime => ?_⟩
    obtain ⟨r, target, inStep, seen, answered, hearing⟩ := heard inTime
    exact ⟨r, target, inStep, seen, answered, hearing⟩
  exact (moved.micro _).envTick

theorem OnTarget.accept (quiet : hostQuiet s.host = true) (ready : s.rails.ready = true) (target : s.target = .reference r)
    (inStep : r.inStep = true) (op : Op) (argV : Byte) (argA : Half) : OnTarget s r (s.accept op argV argA) := by
  have out := accept_outside s op argV argA
  refine ⟨by rw [out.rails]; simpa using ready, by rw [out.host]; exact quiet, _, accept_events .., fun _ => ?_⟩
  refine ⟨r, ?_, inStep, rfl, trivial, ?_⟩
  · rw [accept_target, target]
  · refine startEntry_hearing (.inl ?_) r
    exact (seqOf_length s.cfg op argV argA).symm ▸ seqLen_pos op

/-- A command on a powered-up target in step is such a run. -/
theorem exec_onTarget {i : Instr} (ready : s.Ready) (target : s.target = .reference r) (inStep : r.inStep = true)
    (up : s.rails.ready = true) (run : exec i s = .next t) : OnTarget s r t :=
  exec_induction run (fun _ => (OnTarget.accept ready.quiet up target inStep _ _ _).envTick) fun _ busy hu => hu.cycle busy

/-- A completed command in which no poll timed out has been heard by the target. -/
theorem exec_heard {i : Instr} {ts : List TxRecord} (ready : s.Ready) (target : s.target = .reference r)
    (inStep : r.inStep = true) (up : s.rails.ready = true) (run : exec i s = .next t)
    (command : CommandRun i.op i.v8 i.a16 s t ts)
    (inTime : (commandEvents s.cfg i.op i.v8 i.a16 ts).any Event.isPollTimeout = false) :
    ∃ r', Heard r (commandEvents s.cfg i.op i.v8 i.a16 ts) t r' := by
  obtain ⟨-, -, new, hev, heard⟩ := exec_onTarget ready target inStep up run
  obtain rfl : new = commandEvents s.cfg i.op i.v8 i.a16 ts :=
    List.append_cancel_left (hev.symm.trans command.events_eq)
  exact heard inTime

/-- The transactions of such a command return the target's responses. -/
theorem Heard.answered_command {cfg : Config} {op : Op} {argV : Byte} {argA : Half} {ts : List TxRecord}
    (h : Heard r₀ (commandEvents cfg op argV argA ts) t r) :
    r₀.rested.Answered (seqView (seqOf cfg op argV argA) ts) :=
  txView_commandEvents cfg op argV argA ts ▸ h.answered

end Sys2Proof.Machine
end

section
/-! SUPPORT. The read commands on a reference target in step (R46, R80, R84, R88): what their transactions leave in its
latches, and what it answers to them. -/

namespace Sys2Proof.Machine

variable {s t : State} {r : RefTarget}

/-! ### What a transaction leaves in the latches -/

/-- A target with its storage as it was and its latches as a reading mode leaves them (R47): mode, index, last address. -/
def RefTarget.latched (r : RefTarget) (cmd idx last : Byte) : RefTarget :=
  { r.rested with cmd := cmd, idx := idx, prev := some last }

/-- A transaction to an address byte of no mutation stores nothing (R47). -/
theorem RefTarget.mutate_of_addr {a : Byte} (h6C : a ≠ 0x6C) (h7C : a ≠ 0x7C) (h6E : a ≠ 0x6E) (n : Nat) :
    r.mutate a n = r := by
  simp only [RefTarget.mutate, h6C, h7C, h6E, and_false, if_false]

/-- A transaction in a mode of no mutation stores nothing (R47). -/
theorem RefTarget.mutate_of_cmd (h40 : r.cmd ≠ 0x40) (h80 : r.cmd ≠ 0x80) (a : Byte) (n : Nat) : r.mutate a n = r := by
  simp only [RefTarget.mutate, h40, h80, false_and, if_false]

/-- A transaction that stores nothing leaves its latch and its address byte (R47). -/
theorem RefTarget.seen_of_latch (hstep : r.inStep = true) {v a : Byte}
    (stored : (r.rested.latch v a).mutate a (Config.freeBusy 0) = r.rested.latch v a) :
    r.seen v a = ({ r.rested.latch v a with prev := some a } : RefTarget).rested := by
  have hstep' : r.rested.inStep = true := hstep
  rw [RefTarget.seen, RefTarget.finish, if_pos hstep', stored]

/-- The mode-select transaction (R47). -/
theorem RefTarget.seen_mode (hstep : r.inStep = true) (v : Byte) : r.seen v 0x4C = r.latched v r.idx 0x4C :=
  RefTarget.seen_of_latch hstep (RefTarget.mutate_of_addr (by decide) (by decide) (by decide) _)

/-- The index transaction of a signature read (R47). -/
theorem RefTarget.latched_seen_index (hstep : r.inStep = true) (c i l v : Byte) :
    (r.latched c i l).seen v 0x0C = r.latched c v 0x0C :=
  RefTarget.seen_of_latch (r := r.latched c i l) hstep (RefTarget.mutate_of_addr (by decide) (by decide) (by decide) _)

/-- A strobe or a data read in a mode that reads (R47). -/
theorem RefTarget.latched_seen_strobe (hstep : r.inStep = true) {c a : Byte} (h40 : c ≠ 0x40) (h80 : c ≠ 0x80)
    (h4C : a ≠ 0x4C) (h0C : a ≠ 0x0C) (h2C : a ≠ 0x2C) (i l v : Byte) :
    (r.latched c i l).seen v a = r.latched c i a := by
  have latch : (r.latched c i l).rested.latch v a = (r.latched c i l).rested := by
    simp only [RefTarget.latch, h4C, h0C, h2C, if_false]
  have stored : ((r.latched c i l).rested.latch v a).mutate a (Config.freeBusy 0) = (r.latched c i l).rested.latch v a := by
    rw [latch]
    exact RefTarget.mutate_of_cmd h40 h80 a _
  rw [RefTarget.seen_of_latch (r := r.latched c i l) hstep stored, latch]
  rfl

/-! ### What the target answers to a sub-sequence -/

/-- A mode-select for reading, a strobe and a data read (R84, R88): the third byte, and the target after it. -/
theorem RefTarget.Answered.bank {p q v w x₀ x₁ x₂ : Byte} {view : List (Byte × Byte × Byte)} (hstep : r.inStep = true)
    (h : r.Answered ((0x04, 0x4C, x₀) :: (v, p, x₁) :: (w, q, x₂) :: view))
    (hp : p ≠ 0x4C ∧ p ≠ 0x0C ∧ p ≠ 0x2C) (hq : q ≠ 0x4C ∧ q ≠ 0x0C ∧ q ≠ 0x2C) :
    (∀ R, (r.latched 0x04 r.idx p).response q = some R → x₂ = R) ∧ (r.latched 0x04 r.idx q).Answered view := by
  have strobe : ∀ {a : Byte} (l u : Byte), a ≠ 0x4C ∧ a ≠ 0x0C ∧ a ≠ 0x2C →
      (r.latched 0x04 r.idx l).seen u a = r.latched 0x04 r.idx a := fun l u ⟨h4C, h0C, h2C⟩ =>
    RefTarget.latched_seen_strobe hstep (by decide) (by decide) h4C h0C h2C _ l u
  obtain ⟨-, -, third, rest⟩ := h
  rw [RefTarget.seen_mode hstep, strobe _ _ hp] at third
  rw [RefTarget.seen_mode hstep, strobe _ _ hp, strobe _ _ hq] at rest
  exact ⟨third, rest⟩

/-- A signature sub-sequence for one index (R80): the fourth byte, and the target after it. -/
theorem RefTarget.Answered.signature {i x₀ x₁ x₂ x₃ : Byte} {view : List (Byte × Byte × Byte)}
    (hstep : r.inStep = true)
    (h : r.Answered ((0x08, 0x4C, x₀) :: (i, 0x0C, x₁) :: (0x00, 0x68, x₂) :: (0x00, 0x6C, x₃) :: view)) :
    (∀ R, (r.latched 0x08 i 0x68).response 0x6C = some R → x₃ = R) ∧ (r.latched 0x08 i 0x6C).Answered view := by
  obtain ⟨-, -, -, fourth, rest⟩ := h
  have addrHigh : ((r.seen 0x08 0x4C).seen i 0x0C).seen 0x00 0x68 = r.latched 0x08 i 0x68 := by
    rw [RefTarget.seen_mode hstep, RefTarget.latched_seen_index hstep]
    exact RefTarget.latched_seen_strobe hstep (by decide) (by decide) (by decide) (by decide) (by decide) _ _ _
  have dataLow : (r.latched 0x08 i 0x68).seen 0x00 0x6C = r.latched 0x08 i 0x6C :=
    RefTarget.latched_seen_strobe hstep (by decide) (by decide) (by decide) (by decide) (by decide) _ _ _
  rw [addrHigh] at fourth
  rw [addrHigh, dataLow] at rest
  exact ⟨fourth, rest⟩

/-- The fold of a signature's two bytes is big-endian (R81). -/
theorem sigFold_twice (b₁ b₂ : Byte) : sigFold (sigFold 0 b₁) b₂ = b₁ ++ b₂ := by
  apply BitVec.eq_of_toNat_eq
  have h₁ := b₁.isLt
  have h₂ := b₂.isLt
  have appended : (b₁ ++ b₂).toNat = b₁.toNat * 2 ^ 8 + b₂.toNat := by
    rw [BitVec.toNat_append, ← Nat.shiftLeft_add_eq_or_of_lt h₂, Nat.shiftLeft_eq]
  have zero : (0 : Half).toNat = 0 := rfl
  rw [appended]
  simp only [sigFold, BitVec.toNat_add, BitVec.toNat_shiftLeft, BitVec.truncate_eq_setWidth, BitVec.toNat_setWidth,
    Nat.shiftLeft_eq, zero]
  omega

/-! ### The read commands -/

variable {cfg : Config} {argV : Byte} {argA : Half} {ts : List TxRecord} {x : Results × Half}

/-- READ_SIG on a target in step folds its two signature bytes (R80, R81). -/
theorem signature_of_answered (hstep : r.inStep = true) (kSig : cfg.kSig = .standard)
    (records : ts.length = (seqOf cfg .readSig argV argA).length)
    (h : r.Answered (seqView (seqOf cfg .readSig argV argA) ts)) :
    (seqResults (seqOf cfg .readSig argV argA) ts (x.1, 0)).2 = r.sig1 ++ r.sig2 := by
  simp only [seqOf, kSig] at records h ⊢
  match ts, records with
  | [x₀, x₁, x₂, x₃, x₄, x₅, x₆, x₇], _ =>
    obtain ⟨first, rest⟩ := RefTarget.Answered.signature (i := 0x01) hstep h
    obtain ⟨second, -⟩ := RefTarget.Answered.signature (r := r.latched 0x08 0x01 0x6C) (i := 0x02) hstep rest
    rw [← first r.sig1 rfl, ← second r.sig2 rfl]
    exact sigFold_twice _ _

/-- READ_FUSES on a target in step stores its three fuse bytes (R84). -/
theorem fuses_of_answered (hstep : r.inStep = true) (kRf : cfg.kRf = .standard)
    (records : ts.length = (seqOf cfg .readFuses argV argA).length)
    (h : r.Answered (seqView (seqOf cfg .readFuses argV argA) ts)) :
    (seqResults (seqOf cfg .readFuses argV argA) ts x).1.lfuse = r.lf ∧
      (seqResults (seqOf cfg .readFuses argV argA) ts x).1.hfuse = r.hf ∧
      (seqResults (seqOf cfg .readFuses argV argA) ts x).1.efuse = r.ef := by
  simp only [seqOf, kRf] at records h ⊢
  match ts, records with
  | [x₀, x₁, x₂, x₃, x₄, x₅, x₆, x₇, x₈], _ =>
    obtain ⟨low, rest⟩ := RefTarget.Answered.bank (p := 0x68) (q := 0x6C) hstep h (by decide) (by decide)
    obtain ⟨high, rest⟩ := RefTarget.Answered.bank (r := r.latched 0x04 r.idx 0x6C) (p := 0x7A) (q := 0x7E) hstep rest
      (by decide) (by decide)
    obtain ⟨ext, -⟩ := RefTarget.Answered.bank (r := r.latched 0x04 r.idx 0x7E) (p := 0x6A) (q := 0x6E) hstep rest
      (by decide) (by decide)
    exact ⟨low r.lf rfl, high r.hf rfl, ext r.ef rfl⟩

/-- READ_LOCK on a target in step stores its lock byte (R88). -/
theorem lock_of_answered (hstep : r.inStep = true) (records : ts.length = (seqOf cfg .readLock argV argA).length)
    (h : r.Answered (seqView (seqOf cfg .readLock argV argA) ts)) :
    (seqResults (seqOf cfg .readLock argV argA) ts x).1.lock = r.lock := by
  obtain ⟨x₀, x₁, x₂, rfl⟩ := List.length_eq_three.mp records
  obtain ⟨lock, -⟩ := RefTarget.Answered.bank (p := 0x78) (q := 0x7C) hstep h (by decide) (by decide)
  exact lock r.lock rfl

/-- Settles O37: each command's results are those of its records, which the target has answered. -/
theorem readsReturnTheReferenceTargetsFields : Obligations.ReadsReturnTheReferenceTargetsFields := by
  intro s r ready target inStep up kSig kRf
  refine ⟨?_, ?_, ?_⟩
  · obtain ⟨t, ts, run, -, command, -⟩ := exec_completes .rdsig ready
    refine ⟨t, _, run, command.events_eq, fun inTime => ?_⟩
    obtain ⟨r', heard⟩ := exec_heard ready target inStep up run command inTime
    rw [command.results]
    exact signature_of_answered (r := r.rested) (x := (s.res, 0)) inStep kSig command.records heard.answered_command
  · obtain ⟨t, ts, run, -, command, -⟩ := exec_completes .rdfuses ready
    refine ⟨t, _, run, command.events_eq, fun inTime => ?_⟩
    obtain ⟨r', heard⟩ := exec_heard ready target inStep up run command inTime
    rw [command.results]
    exact fuses_of_answered (r := r.rested) inStep kRf command.records heard.answered_command
  · obtain ⟨t, ts, run, -, command, -⟩ := exec_completes .rdlock ready
    refine ⟨t, _, run, command.events_eq, fun inTime => ?_⟩
    obtain ⟨r', heard⟩ := exec_heard ready target inStep up run command inTime
    rw [command.results]
    exact lock_of_answered (r := r.rested) inStep command.records heard.answered_command

end Sys2Proof.Machine
end

section
/-! SUPPORT. The words the decoder accepts and the words it reserves (R51, R52, R54), and the statements about the command word
and the assembler's operands (R58, R60). -/

namespace Sys2Proof.Machine

variable {w : CmdWord} {i : Instr} {s : State}

/-! ### The three kinds of words -/

/-- The codes of no command (R52). -/
theorem Op.ofCode_eq_none {c : BitVec 3} : Op.ofCode c = none ↔ c = 6 ∨ c = 7 := by
  revert c
  decide

/-- A word has a non-zero SBZ, or a reserved OP, or is the word of a command and its two operand fields (R51, R52). -/
theorem word_cases (w : CmdWord) : fieldSbz w ≠ 0 ∨ (fieldSbz w = 0 ∧ Op.ofCode (fieldOp w) = none) ∨
    ∃ op a16 v8, w = commandWord op a16 v8 := by
  by_cases hz : fieldSbz w = 0
  · cases hop : Op.ofCode (fieldOp w) with
    | none => exact .inr (.inl ⟨hz, rfl⟩)
    | some op =>
      refine .inr (.inr ⟨op, fieldA16 w, fieldV8 w, ?_⟩)
      have hw := word_of_fields w
      rw [hz, Op.ofCode_eq_some hop] at hw
      exact hw
  · exact .inl hz

theorem decode_of_sbz (hz : fieldSbz w ≠ 0) : decode w = .error .sbzNotZero := if_pos hz

theorem decode_of_reservedOp (hz : fieldSbz w = 0) (hop : Op.ofCode (fieldOp w) = none) : decode w = .error .reservedOp := by
  rw [decode, if_neg (not_not.mpr hz), hop]

theorem decode_transact (a16 : Half) (v8 : Byte) : decode (commandWord .transact a16 v8) =
    if highByte a16 = 0 then .ok (.transact v8 (lowByte a16)) else .error .unusedFieldNotZero := by simp [decode]

/-- The instructions without operands (R52). -/
def bareInstrs : List Instr := [.rdsig, .rdfuses, .rdlock, .erase]

/-- The word of a command without operands decodes where both its operand fields are 0 (R54). -/
theorem decode_bare {j : Instr} (hj : j ∈ bareInstrs) (a16 : Half) (v8 : Byte) : decode (commandWord j.op a16 v8) =
    if a16 = 0 ∧ v8 = 0 then .ok j else .error .unusedFieldNotZero := by
  simp only [bareInstrs, List.mem_cons, List.not_mem_nil, or_false] at hj
  rcases hj with rfl | rfl | rfl | rfl <;> simp [decode, decodeBare, Instr.op]

theorem encode_bare {j : Instr} (hj : j ∈ bareInstrs) : encode j = commandWord j.op 0 0 ∧ j.canon = j := by
  simp only [bareInstrs, List.mem_cons, List.not_mem_nil, or_false] at hj
  rcases hj with rfl | rfl | rfl | rfl <;> exact ⟨rfl, rfl⟩

/-! ### Accepted words -/

/-- Two spellings of an instruction have one word (R61). -/
@[simp] theorem encode_canon (i : Instr) : encode i.canon = encode i := by
  cases i with
  | wrfuse addr value => simp only [Instr.canon]; split_ifs <;> simp_all [encode, Instr.op, Instr.a16, Instr.v8]
  | _ => rfl

theorem wellFormed_iff : i.wellFormed = true ↔ i.canon = i := by simp [Instr.wellFormed]

/-- The decoder's spelling of an instruction is its own spelling (R61). -/
theorem canon_wellFormed (i : Instr) : i.canon.wellFormed = true := by
  rw [wellFormed_iff]
  cases i with
  | wrfuse addr value => simp only [Instr.canon]; split_ifs <;> simp_all
  | _ => rfl

/-- An accepted word of a command without operands is that of its instruction (R54). -/
theorem encode_of_decode_bare {j : Instr} (hj : j ∈ bareInstrs) {a16 : Half} {v8 : Byte}
    (h : decode (commandWord j.op a16 v8) = .ok i) : encode j = commandWord j.op a16 v8 ∧ j.canon = i := by
  rw [decode_bare hj] at h
  split at h
  next hzero =>
    obtain ⟨rfl, rfl⟩ := hzero
    cases h
    exact encode_bare hj
  next => cases h

/-- Each accepted word is that of an instruction, which the decoder answers in its own spelling (R51, R52, R61). -/
theorem decode_eq_ok (h : decode w = .ok i) : ∃ j, encode j = w ∧ j.canon = i := by
  rcases word_cases w with hz | ⟨hz, hop⟩ | ⟨op, a16, v8, rfl⟩
  · rw [decode_of_sbz hz] at h; cases h
  · rw [decode_of_reservedOp hz hop] at h; cases h
  cases op with
  | transact =>
    rw [decode_transact] at h
    split at h
    next hhigh =>
      have ha := half_of_bytes a16
      rw [hhigh] at ha
      cases h
      exact ⟨.transact v8 (lowByte a16), congrArg (commandWord .transact · v8) ha.symm, rfl⟩
    next => cases h
  | writeFuse =>
    rw [decode_writeFuse] at h
    cases h
    exact ⟨.wrfuse a16 v8, rfl, rfl⟩
  | readSig => exact ⟨.rdsig, encode_of_decode_bare (by decide) h⟩
  | readFuses => exact ⟨.rdfuses, encode_of_decode_bare (by decide) h⟩
  | readLock => exact ⟨.rdlock, encode_of_decode_bare (by decide) h⟩
  | erase => exact ⟨.erase, encode_of_decode_bare (by decide) h⟩

/-- Settles O1: the decoder's spelling of a well-formed instruction is the instruction. -/
theorem decodeOfEncodeIsTheInstruction : Obligations.DecodeOfEncodeIsTheInstruction :=
  ⟨decode_encode, fun i hi => by rw [decode_encode, wellFormed_iff.mp hi]⟩

/-- Settles O2: an accepted word is an instruction's, and the decoder answers that instruction's own spelling. -/
theorem encodeOfDecodeIsTheWord : Obligations.EncodeOfDecodeIsTheWord := by
  intro w i h
  obtain ⟨j, rfl, rfl⟩ := decode_eq_ok h
  exact ⟨encode_canon j, canon_wellFormed j⟩

/-- Settles O4: each word is the encoding of its instruction, in the decoder's spelling. -/
theorem writtenOutWordsDecode : Obligations.WrittenOutWordsDecode :=
  ⟨decode_encode (.transact 0x40 0x4C), decode_encode .rdsig, decode_encode .rdfuses, decode_encode (.wrfuse 0x1234 0x55),
    decode_encode (.wrlfuse 0x62), decode_encode (.wrhfuse 0xDF), decode_encode (.wrefuse 0xFF), decode_encode .rdlock,
    decode_encode .erase⟩

/-! ### Reserved words -/

/-- Two fields side by side are 0 exactly if both are. -/
theorem append_eq_zero_iff {m n : Nat} {x : BitVec m} {y : BitVec n} : x ++ y = 0#(m + n) ↔ x = 0#m ∧ y = 0#n := by
  refine ⟨fun h => ?_, fun ⟨hx, hy⟩ => by rw [hx, hy, BitVec.zero_append_zero]⟩
  have hx := congrArg (BitVec.extractLsb' n m) h
  have hy := congrArg (BitVec.extractLsb' 0 n) h
  rw [BitVec.extractLsb'_append_eq_left] at hx
  rw [BitVec.extractLsb'_append_eq_right] at hy
  exact ⟨hx.trans (by simp), hy.trans (by simp)⟩

/-- Bits 23:0 are `A16` and `V8` (R51). -/
theorem operandBits_eq_zero (w : CmdWord) : w.extractLsb' 0 24 = 0 ↔ fieldA16 w = 0 ∧ fieldV8 w = 0 := by
  have fields : fieldA16 w ++ fieldV8 w = w.extractLsb' 0 24 :=
    BitVec.extractLsb'_append_extractLsb'_eq_extractLsb' (start₁ := 0) (len₁ := 8) (len₂ := 16) rfl
  rw [← fields]
  exact append_eq_zero_iff

/-- Bits 23:16 are the high byte of `A16` (R51). -/
theorem highByte_fieldA16 (w : CmdWord) : w.extractLsb' 16 8 = highByte (fieldA16 w) := by
  apply BitVec.eq_of_getLsbD_eq
  intro k hk
  simp [highByte, fieldA16, hk, show 8 + k < 16 by omega, ← Nat.add_assoc]

/-- The word of a command without operands is reserved where an operand field is not 0 (R54). -/
theorem decode_bare_error {j : Instr} (hj : j ∈ bareInstrs) (a16 : Half) (v8 : Byte) :
    (∃ e, decode (commandWord j.op a16 v8) = .error e) ↔ ¬(a16 = 0 ∧ v8 = 0) := by
  rw [decode_bare hj]
  split <;> simp_all

/-- The reserved words (R54). -/
theorem decode_error (w : CmdWord) : (∃ e, decode w = .error e) ↔
    (fieldSbz w ≠ 0 ∨ fieldOp w = 6 ∨ fieldOp w = 7 ∨ (fieldOp w = 0 ∧ w.extractLsb' 16 8 ≠ 0) ∨
      ((fieldOp w = 1 ∨ fieldOp w = 2 ∨ fieldOp w = 4 ∨ fieldOp w = 5) ∧ w.extractLsb' 0 24 ≠ 0)) := by
  rw [Ne, Ne, Ne, operandBits_eq_zero, highByte_fieldA16]
  rcases word_cases w with hz | ⟨hz, hop⟩ | ⟨op, a16, v8, rfl⟩
  · exact iff_of_true ⟨_, decode_of_sbz hz⟩ (.inl hz)
  · exact iff_of_true ⟨_, decode_of_reservedOp hz hop⟩ (.inr ((Op.ofCode_eq_none.mp hop).elim .inl fun h => .inr (.inl h)))
  rw [commandWord_sbz, commandWord_op, commandWord_a16, commandWord_v8]
  cases op with
  | transact =>
    rw [decode_transact]
    split <;> simp_all [Op.code]
  | writeFuse => simp [decode_writeFuse, Op.code]
  | readSig => simpa [Op.code, Instr.op] using decode_bare_error (j := .rdsig) (by decide) a16 v8
  | readFuses => simpa [Op.code, Instr.op] using decode_bare_error (j := .rdfuses) (by decide) a16 v8
  | readLock => simpa [Op.code, Instr.op] using decode_bare_error (j := .rdlock) (by decide) a16 v8
  | erase => simpa [Op.code, Instr.op] using decode_bare_error (j := .erase) (by decide) a16 v8

/-- A cycle of an idle block that is presented a reserved word records it and marks the run (R54, R111). -/
theorem cycle_reserved {h : List HostAct} {e : DecodeError} (idle : s.busy = false) (hh : s.host = .present w :: h)
    (hd : decode w = .error e) :
    s.cycle = (State.refuse (.reservedCommand w) (State.raise (.reservedCommand w) { s with host := h })).envTick := by
  simp [State.cycle, State.clk, hh, hostPins, idle, State.presentIdle, hd]

/-- Settles O3: the step is the refused fetch of the word, and the cycle the one of `cycle_reserved`. -/
theorem reservedWordsAreNotAccepted : Obligations.ReservedWordsAreNotAccepted := by
  refine ⟨decode_error, fun s w h e unmarked idle hh hd => ⟨?_, ?_⟩⟩
  · rw [step_idle unmarked idle, idleStep_portAct (by rw [hh]; rfl), hostStep, hh]
    simp only [fetch, hd]
  · rw [cycle_reserved idle hh hd]
    refine ⟨idle, rfl, ?_, ?_, rfl⟩
    · simp [State.events]
    · simp [unmarked]

/-! ### Operands -/

/-- Settles O5: the ROM holds the latched operands, and `tx_start` frames those of its entry. -/
theorem operandsAreAssembledAsTheRomSays : Obligations.OperandsAreAssembledAsTheRomSays := by
  refine ⟨fun c v a => ⟨rfl, rfl, rfl, rfl, (half_of_bytes a).symm, rfl, rfl⟩, fun s e he => ?_⟩
  rw [startEntry_eq he]
  exact ⟨rfl, rfl, fun k _ => ⟨frame_getLsbD e.value k, frame_getLsbD e.addr k⟩⟩

/-- Settles O46: the operand's one test is whether the number fits. -/
theorem assemblerNeverTruncatesAnOperand : Obligations.AssemblerNeverTruncatesAnOperand := by
  intro width cs n parsed
  rw [operand, parsed]
  refine ⟨fun fits => ⟨BitVec.ofNat width n, if_pos fits, ?_⟩, fun wide => if_neg (not_lt.mpr wide)⟩
  rw [BitVec.toNat_ofNat, Nat.mod_eq_of_lt fits]

end Sys2Proof.Machine
end

section
/-! SUPPORT. Every command at the transaction level (R53, R76, R77), and the fuse writes among them (R61, R85). -/

namespace Sys2Proof.Machine

variable {s t : State} {op : Op} {argV : Byte} {argA : Half} {ts : List TxRecord}

/-- Settles O10: what `runCommand_completes` says of every command, said of every instruction. -/
theorem everyCommandPlaysItsSequence : Obligations.EveryCommandPlaysItsSequence := by
  intro i s ready
  obtain ⟨t, ts, run, atRest, command, outside, -, -, host⟩ := exec_completes i ready
  exact ⟨t, ts, run, command, atRest, outside, host⟩

/-- The transaction view of a whole command (R44). -/
theorem CommandRun.txView_events (h : CommandRun op argV argA s t ts) :
    txView t.events = txView s.events ++ seqView (seqOf s.cfg op argV argA) ts := by
  rw [h.events_eq, txView_append, txView_commandEvents]

/-- What a fuse write does from a state that is ready for it, whatever the address: all four results are discarded, so none
changes a result register (R56, R85). -/
theorem wrfuse_completes (addr : Half) (value : Byte) (ready : s.Ready) :
    ∃ t r0 r1 r2 r3, exec (.wrfuse addr value) s = .next t ∧ t.AtRest ∧ SameOutside s t ∧ t.res = s.res ∧
      t.sigacc = s.sigacc ∧ txView t.events = txView s.events ++
        [(0x40, 0x4C, r0), (value, 0x2C, r1), (0, highByte addr, r2), (0, lowByte addr, r3)] := by
  obtain ⟨t, ts, run, atRest, command, outside, -⟩ := exec_completes (.wrfuse addr value) ready
  match ts, command.records, command with
  | [x₀, x₁, x₂, x₃], _, command =>
    exact ⟨t, x₀.result, x₁.result, x₂.result, x₃.result, run, atRest, outside, command.results, command.sigacc,
      command.txView_events⟩

/-- Settles O15: word and meaning are those of WRFUSE by R61, and so is the completion. -/
theorem namedFuseWritesAreFuseWrites : Obligations.NamedFuseWritesAreFuseWrites := by
  refine ⟨fun value s => ⟨rfl, rfl, rfl, rfl, rfl, rfl⟩, fun s value ready => ?_⟩
  exact ⟨wrfuse_completes Config.lfuse value ready, wrfuse_completes Config.hfuse value ready,
    wrfuse_completes Config.efuse value ready⟩

end Sys2Proof.Machine
end

section
/-! SUPPORT. The line binding reaches the two data lines and the drive events, and nothing else (R50, R68): a run and the same
run with another binding go on side by side. -/

namespace Sys2Proof.Machine

variable {s u : State} {b : LineBind}

/-- `s` with another line binding, and with other levels of the data lines and another trace, which depend on it. -/
def State.rebind (b : LineBind) (sii sdi : Bool) (trace : List Event) (s : State) : State :=
  { s with cfg := { s.cfg with lineBind := b }, sii := sii, sdi := sdi, trace := trace }

/-- `u` is `s` but for the line binding and what it reaches; the transactions recorded are the same. -/
def Rebound (b : LineBind) (s u : State) : Prop :=
  ∃ sii sdi trace, u = s.rebind b sii sdi trace ∧ txView trace = txView s.trace

/-- The sequence ROM does not look at the line binding (R56). -/
theorem rebind_entry (s : State) (b : LineBind) (x y : Bool) (tr : List Event) :
    (s.rebind b x y tr).seq[(s.rebind b x y tr).step.toNat]? = s.seq[s.step.toNat]? := rfl

/-- The target does not look at it (log 9). -/
theorem rebind_sdoGiven (s : State) (b : LineBind) (x y : Bool) (tr : List Event) :
    (s.rebind b x y tr).sdoGiven = s.sdoGiven := rfl

theorem Rebound.sdo (h : Rebound b s u) : u.sdo = s.sdo := by
  obtain ⟨x, y, tr, rfl, -⟩ := h
  rfl

/-! ### Updates of a state -/

/-- An update that neither looks at the line binding and the lines nor records an event. -/
theorem Rebound.map (h : Rebound b s u) (f : State → State)
    (hf : ∀ x y tr, f (s.rebind b x y tr) = (f s).rebind b x y tr) (ht : (f s).trace = s.trace) : Rebound b (f s) (f u) := by
  obtain ⟨x, y, tr, rfl, view⟩ := h
  exact ⟨x, y, tr, hf x y tr, ht ▸ view⟩

/-- A branch on what the line binding does not reach. -/
theorem Rebound.ite {s' u' : State} (h : Rebound b s u) (c : Prop) [Decidable c] (k : Rebound b s' u') :
    Rebound b (if c then s else s') (if c then u else u') := by
  split
  · exact h
  · exact k

theorem Rebound.emit (h : Rebound b s u) (e : Event) : Rebound b (s.emit e) (u.emit e) := by
  obtain ⟨x, y, tr, rfl, view⟩ := h
  have cons : ∀ l, txView (e :: l) = txView [e] ++ txView l := fun l => txView_append [e] l
  exact ⟨x, y, e :: tr, rfl, (cons tr).trans (view ▸ (cons s.trace).symm)⟩

theorem Rebound.startEntry (h : Rebound b s u) : Rebound b s.startEntry u.startEntry :=
  h.map State.startEntry (fun x y tr => by
    unfold State.startEntry
    rw [rebind_entry]
    split <;> rfl) (by simp)

theorem Rebound.sinkResult (h : Rebound b s u) : Rebound b s.sinkResult u.sinkResult :=
  h.map State.sinkResult (fun x y tr => by
    unfold State.sinkResult
    rw [rebind_entry]
    split <;> rfl) (by simp)

theorem Rebound.sdoRead (h : Rebound b s u) : Rebound b s.sdoRead u.sdoRead :=
  h.map State.sdoRead (fun x y tr => by
    unfold State.sdoRead
    rw [rebind_sdoGiven]
    split <;> rfl) (by simp)

theorem Rebound.targetBegin (h : Rebound b s u) : Rebound b s.targetBegin u.targetBegin := by
  have began := h.map (fun w => { w with target := w.target.onReference (RefTarget.begin w.rails.powered) })
    (fun _ _ _ => rfl) rfl
  have later := h
  obtain ⟨x, y, tr, rfl, -⟩ := h
  exact began.ite (s.pos = 10) later

theorem Rebound.envTick (h : Rebound b s u) : Rebound b s.envTick u.envTick := h.map State.envTick (fun _ _ _ => rfl) rfl

/-! ### One micro-step -/

theorem Rebound.pollDecide (h : Rebound b s u) (level : Bool) : Rebound b (s.pollDecide level) (u.pollDecide level) := by
  have ready := (h.emit (.pollExit .ready)).map (fun w => { w with bs := .drive }) (fun _ _ _ => rfl) rfl
  have timeout := ((h.emit (.pollExit .timeout)).emit (.pollTimeout s.op s.step)).map (fun w => { w with bs := .drive })
    (fun _ _ _ => rfl) rfl
  have waits := h
  obtain ⟨x, y, tr, rfl, -⟩ := h
  exact ready.ite (level = true) (timeout.ite (s.cfg.tPoll ≤ s.pollT) waits)

theorem Rebound.pollStep (h : Rebound b s u) (tick : Bool) : Rebound b (s.pollStep tick) (u.pollStep tick) := by
  have decided := (h.sdoRead.emit (.pollSample s.sdo)).pollDecide s.sdo
  unfold State.pollStep
  rw [h.sdo]
  cases tick with
  | false => exact decided
  | true => exact decided.map (fun w => { w with pollT := w.pollT + 1 }) (fun _ _ _ => rfl) rfl

/-- The drive micro-step is where the binding is looked at: the levels and the event differ, and no transaction is recorded
(R71). -/
theorem Rebound.driveStep (h : Rebound b s u) : Rebound b s.driveStep u.driveStep := by
  obtain ⟨x, y, tr, began, view⟩ := h.targetBegin
  obtain ⟨x', y', tr', rfl, -⟩ := h
  unfold State.driveStep
  rw [began]
  exact ⟨_, _, _, rfl, view⟩

theorem Rebound.sampleStep (h : Rebound b s u) : Rebound b s.sampleStep u.sampleStep := by
  have read := h.sdoRead.emit (.sample s.pos s.sdo)
  obtain ⟨x, y, tr, rfl, -⟩ := h
  exact read.map (fun w => { w with acc := shiftIn s.acc s.sdo, bs := .clkh }) (fun _ _ _ => rfl) rfl

theorem Rebound.clkHighStep (h : Rebound b s u) : Rebound b s.clkHighStep u.clkHighStep := by
  have raised := h.emit (.clkHigh s.pos)
  obtain ⟨x, y, tr, rfl, -⟩ := h
  exact raised.map (fun w => { w with sci := true, bs := .clkl }) (fun _ _ _ => rfl) rfl

theorem Rebound.txClosed (h : Rebound b s u) : Rebound b s.txClosed u.txClosed := by
  have lowered := (h.emit (.clkLow s.pos)).map (fun w => { w with sci := false }) (fun _ _ _ => rfl) rfl
  have ended := (lowered.map State.targetFinish (fun _ _ _ => rfl) rfl).emit
    (.txDone (frameByte s.fv) (frameByte s.fa) (frameByte s.acc))
  have closed := ended.map (fun w => { w with rx := frameByte s.acc, bs := .idle }) (fun _ _ _ => rfl) rfl
  obtain ⟨x, y, tr, rfl, -⟩ := h
  exact closed.sinkResult

theorem Rebound.sequence (h : Rebound b s u) : Rebound b s.sequence u.sequence := by
  have next := (h.map (fun w => { w with step := w.step + 1 }) (fun _ _ _ => rfl) rfl).startEntry
  have done := (h.emit (.cmdDone s.op)).map
    (fun w => { w with res := finishResults s.op (s.res, s.sigacc), busy := false }) (fun _ _ _ => rfl) rfl
  obtain ⟨x, y, tr, rfl, -⟩ := h
  exact next.ite (s.step.toNat + 1 < s.seq.length) done

theorem Rebound.clkLowStep (h : Rebound b s u) : Rebound b s.clkLowStep u.clkLowStep := by
  have pos : u.pos = s.pos := by obtain ⟨x, y, tr, rfl, -⟩ := h; rfl
  by_cases last : s.pos = 0
  · rw [clkLowStep_last last, clkLowStep_last (pos.trans last)]
    exact h.txClosed.sequence
  · rw [clkLowStep_inner last, clkLowStep_inner (pos ▸ last), pos]
    exact (h.emit (.clkLow s.pos)).map (fun w => { w with sci := false, pos := s.pos - 1, bs := .drive }) (fun _ _ _ => rfl) rfl

theorem Rebound.micro (h : Rebound b s u) (tick : Bool) : Rebound b (s.micro tick) (u.micro tick) := by
  have bs : u.bs = s.bs := by obtain ⟨x, y, tr, rfl, -⟩ := h; rfl
  unfold State.micro
  rw [bs]
  cases s.bs with
  | idle => exact h
  | poll => exact h.pollStep tick
  | drive => exact h.driveStep
  | sample => exact h.sampleStep
  | clkh => exact h.clkHighStep
  | clkl => exact h.clkLowStep

/-! ### One cycle -/

theorem Rebound.resetCycle (h : Rebound b s u) : Rebound b s.resetCycle u.resetCycle := by
  have cleared : Rebound b s.clearRegisters u.clearRegisters := by
    obtain ⟨x, y, tr, rfl, view⟩ := h
    exact ⟨false, false, tr, rfl, view⟩
  have aborted := (cleared.emit (.resetAbort s.op s.step s.pos)).map (fun w => { w with
    target := w.target.onReference fun t => t.abort w.draws, draws := w.draws + RefTarget.draws }) (fun _ _ _ => rfl) rfl
  have forgotten := cleared.map (fun w => { w with res := Results.reset }) (fun _ _ _ => rfl) rfl
  obtain ⟨x, y, tr, rfl, -⟩ := h
  exact aborted.ite (s.busy = true) forgotten

theorem Rebound.accept (h : Rebound b s u) (op : Op) (argV : Byte) (argA : Half) :
    Rebound b (s.accept op argV argA) (u.accept op argV argA) := by
  have latched := h.map (fun w => { w with
    op := op, argV := argV, argA := argA, step := 0, busy := true, sigacc := if op = Op.readSig then 0 else w.sigacc,
    rails := w.rails.atCommand }) (fun _ _ _ => rfl) rfl
  exact (latched.emit (.cmdAccept op argV argA)).startEntry

theorem Rebound.refuse (h : Rebound b s u) (r : Refusal) : Rebound b (s.refuse r) (u.refuse r) :=
  h.map (State.refuse r) (fun _ _ _ => rfl) rfl

theorem Rebound.presentIdle (h : Rebound b s u) (w : CmdWord) : Rebound b (s.presentIdle w) (u.presentIdle w) := by
  unfold State.presentIdle
  split
  · exact h.accept _ _ _
  · exact (h.emit (.reservedCommand w)).refuse (.reservedCommand w)

theorem Rebound.presentBusy (h : Rebound b s u) (w : CmdWord) : Rebound b (s.presentBusy w) (u.presentBusy w) := by
  have refused := (h.emit (.cmdWhileBusy w s.op s.step)).refuse (.cmdWhileBusy w s.op s.step)
  obtain ⟨x, y, tr, rfl, -⟩ := h
  exact refused

theorem Rebound.clk (h : Rebound b s u) (p : Pins) (tick : Bool) : Rebound b (s.clk p tick) (u.clk p tick) := by
  have busy := ((h.presentBusy p.cmdWord).micro tick).ite (p.cmdValid = true) (h.micro tick)
  have idle := (h.presentIdle p.cmdWord).ite (p.cmdValid = true) h
  have reset := h.resetCycle
  obtain ⟨x, y, tr, rfl, -⟩ := h
  exact reset.ite (p.rst = true) (busy.ite (s.busy = true) idle)

theorem Rebound.cycle (h : Rebound b s u) : Rebound b s.cycle u.cycle := by
  have clocked := ((h.map (fun w => { w with host := (hostPins w.host).2 }) (fun _ _ _ => rfl) rfl).clk
    (hostPins s.host).1 s.time.tick).envTick
  obtain ⟨x, y, tr, rfl, -⟩ := h
  exact clocked

/-! ### One command -/

theorem Rebound.runFuel : ∀ (n : Nat) {s u : State}, Rebound b s u → Rebound b (State.runFuel n s) (State.runFuel n u)
  | 0, _, _, h => h
  | n + 1, s, u, h => by
    have later := Rebound.runFuel n h.cycle
    have done := h
    obtain ⟨x, y, tr, rfl, -⟩ := h
    exact later.ite (s.busy = true) done

/-- The number of cycles a command is given does not depend on the line binding (R78). -/
theorem Rebound.runToIdle (h : Rebound b s u) : Rebound b s.runToIdle u.runToIdle := by
  have run := h.runFuel (s.time.cyclesFor s.budget)
  obtain ⟨x, y, tr, rfl, -⟩ := h
  exact run

/-- What two such states have in common. -/
theorem Rebound.agree (h : Rebound b s u) : u.mark = s.mark ∧ u.res = s.res ∧ u.sigacc = s.sigacc ∧ u.rx = s.rx ∧
    u.busy = s.busy ∧ u.target = s.target ∧ u.time = s.time ∧ txView u.events = txView s.events := by
  obtain ⟨x, y, tr, rfl, view⟩ := h
  refine ⟨rfl, rfl, rfl, rfl, rfl, rfl, rfl, ?_⟩
  have reversed : ∀ es, txView es.reverse = (txView es).reverse := fun es => List.filterMap_reverse ..
  rw [State.events, State.events, reversed, reversed]
  exact congrArg List.reverse view

/-- Settles O21: the two runs go on side by side from the acceptance of the command. -/
theorem lineBindingDoesNotChangeResults : Obligations.LineBindingDoesNotChangeResults := by
  intro i s t b run
  rw [exec_eq_runCommand, runCommand_eq_next] at run
  obtain ⟨idle, rfl, unmarked⟩ := run
  have start : Rebound b s { s with cfg := { s.cfg with lineBind := b } } := ⟨s.sii, s.sdi, s.trace, rfl, rfl⟩
  obtain ⟨mark, same⟩ := ((start.accept i.op i.v8 i.a16).envTick).runToIdle.agree
  refine ⟨_, ?_, same⟩
  rw [exec_eq_runCommand, runCommand_eq_next]
  exact ⟨idle, rfl, mark.trans unmarked⟩

end Sys2Proof.Machine
end

section
/-! SUPPORT. The bit channel cycle by cycle (R62, R63, R69 to R76): with a quiet host a cycle of a busy block is its micro-step,
and what the micro-step does is what the cycle shows. -/

namespace Sys2Proof.Machine

variable {s : State}

/-! ### Samples -/

/-- The accumulator holds the last samples taken, the latest in bit 0 (R62). -/
theorem samples_getLsbD (bits : List Bool) : ∀ i, i < 11 → i < bits.length →
    bits[bits.length - 1 - i]? = some ((bits.foldl shiftIn 0).getLsbD i) := by
  induction bits using List.reverseRecOn with
  | nil => simp
  | append_singleton bits b ih =>
    intro i hi hlen
    rw [List.length_append, List.length_singleton] at hlen ⊢
    rw [resultOf_append, shiftIn_getLsbD _ _ _ hi]
    cases i with
    | zero => simp
    | succ i =>
      have earlier := ih i (by omega) (by omega)
      rw [show bits.length - 1 - i = bits.length + 1 - 1 - (i + 1) by omega] at earlier
      rw [List.getElem?_append_left (by omega), earlier]
      simp

/-- Settles O22: bit `k` of the result is bit `k + 2` of the accumulator. -/
theorem resultBitsAreSamplesOneToEight : Obligations.ResultBitsAreSamplesOneToEight := by
  intro bits hlen k hk
  have sampled := samples_getLsbD bits (2 + k) (by omega) (by omega)
  rw [show bits.length - 1 - (2 + k) = 8 - k by omega] at sampled
  rw [sampled]
  simp [resultOf, frameByte, hk]

/-! ### One cycle -/

/-- The state with another list of coming actions of the host. -/
def State.withHost (acts : List HostAct) (s : State) : State := { s with host := acts }

section
variable (acts : List HostAct) (s : State)

@[simp] theorem State.withHost_cfg : (s.withHost acts).cfg = s.cfg := rfl
@[simp] theorem State.withHost_busy : (s.withHost acts).busy = s.busy := rfl
@[simp] theorem State.withHost_bs : (s.withHost acts).bs = s.bs := rfl
@[simp] theorem State.withHost_step : (s.withHost acts).step = s.step := rfl
@[simp] theorem State.withHost_op : (s.withHost acts).op = s.op := rfl
@[simp] theorem State.withHost_fv : (s.withHost acts).fv = s.fv := rfl
@[simp] theorem State.withHost_fa : (s.withHost acts).fa = s.fa := rfl
@[simp] theorem State.withHost_pos : (s.withHost acts).pos = s.pos := rfl
@[simp] theorem State.withHost_acc : (s.withHost acts).acc = s.acc := rfl
@[simp] theorem State.withHost_pollT : (s.withHost acts).pollT = s.pollT := rfl
@[simp] theorem State.withHost_sii : (s.withHost acts).sii = s.sii := rfl
@[simp] theorem State.withHost_sdi : (s.withHost acts).sdi = s.sdi := rfl
@[simp] theorem State.withHost_sci : (s.withHost acts).sci = s.sci := rfl
@[simp] theorem State.withHost_res : (s.withHost acts).res = s.res := rfl
@[simp] theorem State.withHost_events : (s.withHost acts).events = s.events := rfl
@[simp] theorem State.withHost_sdo : (s.withHost acts).sdo = s.sdo := rfl

end

/-- With a quiet host a cycle of a busy block is its micro-step, on the host's remaining list (`cycle_quiet`). -/
theorem cycle_micro (quiet : hostQuiet s.host = true) (busy : s.busy = true) :
    s.cycle = ((s.withHost (hostPins s.host).2).micro s.time.tick).envTick := cycle_quiet quiet busy

section
variable (quiet : hostQuiet s.host = true) (busy : s.busy = true)
include quiet busy

theorem cycle_poll (hb : s.bs = .poll) :
    s.cycle = ((s.withHost (hostPins s.host).2).pollStep s.time.tick).envTick := by
  rw [cycle_micro quiet busy, State.micro, State.withHost_bs, hb]

theorem cycle_drive (hb : s.bs = .drive) : s.cycle = (s.withHost (hostPins s.host).2).driveStep.envTick := by
  rw [cycle_micro quiet busy, State.micro, State.withHost_bs, hb]

theorem cycle_sample (hb : s.bs = .sample) : s.cycle = (s.withHost (hostPins s.host).2).sampleStep.envTick := by
  rw [cycle_micro quiet busy, State.micro, State.withHost_bs, hb]

theorem cycle_clkHigh (hb : s.bs = .clkh) : s.cycle = (s.withHost (hostPins s.host).2).clkHighStep.envTick := by
  rw [cycle_micro quiet busy, State.micro, State.withHost_bs, hb]

theorem cycle_clkLow (hb : s.bs = .clkl) : s.cycle = (s.withHost (hostPins s.host).2).clkLowStep.envTick := by
  rw [cycle_micro quiet busy, State.micro, State.withHost_bs, hb]

end

/-- `poll_t` counts the tick of the cycle (R70). -/
theorem pollStep_pollT (tick : Bool) : (s.pollStep tick).pollT = s.pollT + if tick then 1 else 0 := by
  cases tick <;> simp [State.pollStep]

/-- Settles O23: the three outcomes are those of the test of R69. -/
theorem pollWaitsForHighOrTheBound : Obligations.PollWaitsForHighOrTheBound := by
  intro s busy hb quiet
  rw [cycle_poll quiet busy hb]
  have bs := pollStep_bs (s := s.withHost (hostPins s.host).2) hb s.time.tick
  rw [State.withHost_sdo, State.withHost_cfg, State.withHost_pollT] at bs
  refine ⟨pollStep_pollT _, fun high => ?_, fun low late => ?_, fun low early => ?_, ?_⟩
  · simp [bs, pollStep_events, high]
  · simp [bs, pollStep_events, low, late]
  · simp [bs, pollStep_events, low, Nat.not_le.mpr early]
  · simp [busy]

/-- Settles O24: the levels are those of `lineLevels` at the present position. -/
theorem drivePutsTheFrameBitsOnTheLines : Obligations.DrivePutsTheFrameBitsOnTheLines := by
  intro s busy hb quiet
  rw [cycle_drive quiet busy hb]
  refine ⟨fun bind => ?_, fun bind => ?_, ?_, rfl, ?_⟩
  · simp [State.driveStep, lineLevels, frameBit, bind]
  · simp [State.driveStep, lineLevels, frameBit, bind]
  · rw [State.envTick_events, driveStep_events]; rfl
  · simp

/-- Settles O25: SCI is high only between clock high and clock low. -/
theorem sampleShiftsOneLevelInWhileSciIsLow : Obligations.SampleShiftsOneLevelInWhileSciIsLow := by
  intro s inv busy hb quiet
  refine ⟨by simpa [hb] using inv.sci_low, ?_⟩
  rw [cycle_sample quiet busy hb]
  refine ⟨?_, by simp, rfl, by simp⟩
  cases hs : s.sdo <;> simp [State.sampleStep, shiftIn, hs]

/-- Settles O26: the cycle is `clkHighStep`, which sets SCI and the phase and records the pulse. -/
theorem clockHighRaisesSci : Obligations.ClockHighRaisesSci := by
  intro s busy hb quiet
  rw [cycle_clkHigh quiet busy hb]
  exact ⟨rfl, by simp, rfl, rfl, rfl, rfl, rfl, rfl⟩

/-! ### The end of a transaction -/

/-- The sequencer goes on while the sequence has an entry left (R76). -/
theorem sequence_next (h : s.step.toNat + 1 < s.seq.length) :
    s.sequence = State.startEntry { s with step := s.step + 1 } := if_pos h

/-- After the last entry the command is done (R76). -/
theorem sequence_last (h : ¬ s.step.toNat + 1 < s.seq.length) : s.sequence =
    { s.emit (.cmdDone s.op) with res := finishResults s.op (s.res, s.sigacc), busy := false } := if_neg h

theorem seq_length (s : State) : s.seq.length = seqLen s.op := seqOf_length ..

@[simp] theorem txClosed_step (s : State) : s.txClosed.step = s.step := by simp [State.txClosed]
@[simp] theorem txClosed_bs (s : State) : s.txClosed.bs = .idle := by simp [State.txClosed]
@[simp] theorem txClosed_busy (s : State) : s.txClosed.busy = s.busy := by simp [State.txClosed]
@[simp] theorem txClosed_sci (s : State) : s.txClosed.sci = false := by simp [State.txClosed]
@[simp] theorem txClosed_rx (s : State) : s.txClosed.rx = frameByte s.acc := by simp [State.txClosed]
@[simp] theorem sequence_sci (s : State) : s.sequence.sci = s.sci := by unfold State.sequence; split <;> simp
@[simp] theorem sequence_rx (s : State) : s.sequence.rx = s.rx := by unfold State.sequence; split <;> simp

/-- `step` counts on within the sequence (R24). -/
theorem step_succ_toNat (h : s.step.toNat + 1 < seqLen s.op) : (s.step + 1).toNat = s.step.toNat + 1 := by
  have := seqLen_le s.op
  rw [BitVec.toNat_add]; simp; omega

/-- A transaction that starts stands at the beginning of its poll (R67). -/
theorem startEntry_poll (h : s.step.toNat < seqLen s.op) :
    s.startEntry.bs = .poll ∧ s.startEntry.pos = 10 ∧ s.startEntry.pollT = 0 := by
  rw [← seq_length] at h
  rw [startEntry_eq (List.getElem?_eq_getElem h)]
  exact ⟨rfl, rfl, rfl⟩

/-- The last clock low of a transaction that is not the command's last starts the next one (R76). -/
theorem clkLowStep_next (hpos : s.pos = 0) (h : s.step.toNat + 1 < seqLen s.op) :
    s.clkLowStep = State.startEntry { s.txClosed with step := s.step + 1 } := by
  rw [clkLowStep_last hpos, sequence_next (by simpa [seq_length] using h), txClosed_step]

/-- What it leaves: the start of the next poll, one entry further (R67, R76). -/
theorem clkLowStep_next_poll (hpos : s.pos = 0) (h : s.step.toNat + 1 < seqLen s.op) :
    s.clkLowStep.bs = .poll ∧ s.clkLowStep.pos = 10 ∧ s.clkLowStep.pollT = 0 ∧ s.clkLowStep.busy = s.busy ∧
      s.clkLowStep.step = s.step + 1 := by
  have within : (s.step + 1).toNat < seqLen s.txClosed.op := by rw [txClosed_op, step_succ_toNat h]; exact h
  obtain ⟨bs, pos, pollT⟩ := startEntry_poll (s := { s.txClosed with step := s.step + 1 }) within
  rw [clkLowStep_next hpos h]
  exact ⟨bs, pos, pollT, by simp, by simp⟩

/-- What the last clock low of a command leaves: an idle block (R76). -/
theorem clkLowStep_done (hpos : s.pos = 0) (h : s.step.toNat + 1 = seqLen s.op) :
    s.clkLowStep.bs = .idle ∧ s.clkLowStep.busy = false := by
  have last : ¬ s.txClosed.step.toNat + 1 < s.txClosed.seq.length := by simp [seq_length, h]
  rw [clkLowStep_last hpos, sequence_last last]
  simp

/-- Clock low lowers SCI at every position (R74). -/
@[simp] theorem clkLowStep_sci (s : State) : s.clkLowStep.sci = false := by
  by_cases hpos : s.pos = 0
  · simp [clkLowStep_last hpos]
  · simp [clkLowStep_inner hpos]

/-- Settles O27: the last position ends the transaction, and the sequencer has a next one or not. -/
theorem clockLowEndsAPositionOrTheTransaction : Obligations.ClockLowEndsAPositionOrTheTransaction := by
  intro s inv busy hb quiet
  have within := inv.step_lt busy
  rw [cycle_clkLow quiet busy hb]
  refine ⟨by simp, fun hpos => ?_, fun hpos => ⟨?_, ?_, fun last => ?_, fun next => ?_⟩⟩
  · have inner : (s.withHost (hostPins s.host).2).pos ≠ 0 := hpos
    rw [State.envTick_events, clkLowStep_events_inner inner, clkLowStep_inner inner]
    exact ⟨rfl, rfl, rfl, rfl, rfl, busy⟩
  · rw [clkLowStep_last (s := s.withHost (hostPins s.host).2) hpos, State.envTick_rx, sequence_rx, txClosed_rx]; rfl
  · have events : (s.withHost (hostPins s.host).2).clkLowStep.events = s.events ++
        ([.clkLow s.pos, .txDone (frameByte s.fv) (frameByte s.fa) (frameByte s.acc)] ++
          if s.step.toNat + 1 < s.seq.length then [] else [.cmdDone s.op]) := clkLowStep_events_last hpos
    rw [State.envTick_events, events, seq_length, List.append_assoc]
    by_cases last : s.step.toNat + 1 = seqLen s.op
    · rw [if_neg (by omega), if_pos last]; rfl
    · rw [if_pos (by omega), if_neg last]; rfl
  · exact clkLowStep_done hpos last
  · obtain ⟨bs, -, -, keeps, step⟩ := clkLowStep_next_poll (s := s.withHost (hostPins s.host).2) hpos next
    exact ⟨bs, keeps.trans busy, step⟩

/-- The end of a transaction puts its result where its ROM entry says (R76, first half). -/
theorem txClosed_put {e : RomEntry} (he : s.seq[s.step.toNat]? = some e) :
    (s.txClosed.res, s.txClosed.sigacc) = e.sink.put (frameByte s.acc) (s.res, s.sigacc) := by
  unfold State.txClosed State.sinkResult
  split
  next e' he' =>
    obtain rfl : e' = e := Option.some.inj (he'.symm.trans he)
    rfl
  next none => exact absurd (none.symm.trans he) (by simp)

/-- READ_SIG is the one command whose last transaction is folded into the accumulator (R56). -/
theorem seqOf_last_sink {cfg : Config} {op : Op} {argV : Byte} {argA : Half} {n : Nat} {e : RomEntry}
    (he : (seqOf cfg op argV argA)[n]? = some e) (last : n + 1 = seqLen op) : e.sink = .sig ↔ op = .readSig := by
  obtain rfl : n = seqLen op - 1 := by omega
  cases op <;> cases he <;> simp [Pair.entry]

/-- In the middle of a command the sink alone decides (R76). -/
theorem clkLowStep_put {e : RomEntry} (hpos : s.pos = 0) (he : s.seq[s.step.toNat]? = some e)
    (next : s.step.toNat + 1 < seqLen s.op) :
    (s.clkLowStep.res, s.clkLowStep.sigacc) = e.sink.put (frameByte s.acc) (s.res, s.sigacc) := by
  rw [← txClosed_put he, clkLowStep_next hpos next, State.startEntry_res, State.startEntry_sigacc]

/-- At its end the command may write RES_SIG as well (R76). -/
theorem clkLowStep_finish {e : RomEntry} (hpos : s.pos = 0) (he : s.seq[s.step.toNat]? = some e)
    (last : s.step.toNat + 1 = seqLen s.op) :
    let put := e.sink.put (frameByte s.acc) (s.res, s.sigacc)
    (s.clkLowStep.res, s.clkLowStep.sigacc) = (finishResults s.op put, put.2) := by
  intro put
  rw [show put = _ from (txClosed_put he).symm, clkLowStep_last hpos, sequence_last (by simp [seq_length, last]), txClosed_op]
  rfl

/-- Only READ_SIG's end writes a result register beyond the sink of its last transaction (R76). -/
theorem finishResults_of_ne {op : Op} (h : op ≠ .readSig) (r : Results × Half) : finishResults op r = r.1 := by
  cases op with
  | readSig => exact absurd rfl h
  | _ => rfl

/-- Settles O47: the sink of the entry decides, and at the end of the command the sink is SIG exactly if it is READ_SIG. -/
theorem transactionEndWritesItsSink : Obligations.TransactionEndWritesItsSink := by
  intro s e inv busy hb hpos quiet he r folded
  have within := inv.step_lt busy
  have middle := clkLowStep_put (s := s.withHost (hostPins s.host).2) hpos he
  have finish := clkLowStep_finish (s := s.withHost (hostPins s.host).2) hpos he
  rw [cycle_clkLow quiet busy hb, State.envTick_res, State.envTick_sigacc]
  have kept (other : e.sink ≠ .sig) : ((s.withHost (hostPins s.host).2).clkLowStep.res,
      (s.withHost (hostPins s.host).2).clkLowStep.sigacc) = e.sink.put r (s.res, s.sigacc) := by
    by_cases next : s.step.toNat + 1 < seqLen s.op
    · exact middle next
    · have last : s.step.toNat + 1 = seqLen s.op := by omega
      have op : s.op ≠ .readSig := fun hop => other ((seqOf_last_sink he last).mpr hop)
      exact (finish last).trans (Prod.ext (finishResults_of_ne op _) rfl)
  refine ⟨fun sink => ?_, fun sink => ?_, fun sink => ?_, fun sink => ?_, fun sink => ?_, fun sink => ?_, fun sink => ?_⟩
  iterate 6 exact Prod.ext_iff.mp ((kept (by simp [sink])).trans (by rw [sink]))
  rw [sink] at middle finish
  refine ⟨?_, fun next => congrArg Prod.fst (middle next), fun last => ?_⟩
  · by_cases next : s.step.toNat + 1 < seqLen s.op
    · exact congrArg Prod.snd (middle next)
    · exact congrArg Prod.snd (finish (by simp; omega))
  · have op : s.op = .readSig := (seqOf_last_sink he last).mp sink
    refine (congrArg Prod.fst (finish last)).trans ?_
    rw [State.withHost_op, op]
    rfl

end Sys2Proof.Machine
end

section
/-! SUPPORT. A command as a run of cycles (R66, R77): what an instruction answers is what the cycles reach from its word being
presented, up to the first in which the block is idle. -/

namespace Sys2Proof.Machine

variable {s t : State}

/-! ### Runs of cycles -/

theorem cycles_add : ∀ (m n : Nat) (s : State), State.cycles (m + n) s = State.cycles n (State.cycles m s)
  | 0, n, s => by rw [Nat.zero_add]; rfl
  | m + 1, n, s => by rw [Nat.succ_add]; exact cycles_add m n s.cycle

/-- Running until `busy` falls is running some number of cycles, and the block is busy before each of them. -/
theorem runFuel_eq_cycles : ∀ (fuel : Nat) (s : State),
    ∃ n, State.runFuel fuel s = State.cycles n s ∧ ∀ m < n, (State.cycles m s).busy = true
  | 0, s => ⟨0, rfl, by simp⟩
  | fuel + 1, s => by
    unfold State.runFuel
    split
    next busy =>
      obtain ⟨n, run, before⟩ := runFuel_eq_cycles fuel s.cycle
      refine ⟨n + 1, run, fun m hm => ?_⟩
      cases m with
      | zero => exact busy
      | succ m => exact before m (by omega)
    next => exact ⟨0, rfl, by simp⟩

/-- The decoder's spelling of an instruction has the same fields (R61). -/
theorem canon_operands (i : Instr) : i.canon.op = i.op ∧ i.canon.v8 = i.v8 ∧ i.canon.a16 = i.a16 := by
  cases i with
  | wrfuse addr value =>
    simp only [Instr.canon]
    split_ifs <;> simp_all [Instr.op, Instr.v8, Instr.a16]
  | _ => exact ⟨rfl, rfl, rfl⟩

/-- The cycle in which an idle block is presented an instruction's word accepts it (R53). -/
theorem cycle_presented (idle : s.busy = false) (i : Instr) :
    State.cycle { s with host := .present (encode i) :: s.host } = (s.accept i.op i.v8 i.a16).envTick := by
  obtain ⟨op, v8, a16⟩ := canon_operands i
  have accepted : s.presentIdle (encode i) = s.accept i.op i.v8 i.a16 := by
    simp only [State.presentIdle, decode_encode, op, v8, a16]
  show State.envTick (if s.busy = true then _ else s.presentIdle (encode i)) = _
  rw [if_neg (by simp [idle]), accepted]

/-- What an instruction answers is the first idle state that the cycles reach from its acceptance, or one still busy where its
cycles are used up (R77). -/
theorem exec_eq_cycles {i : Instr} (run : exec i s = .next t) : ∃ n, t = State.cycles n (s.accept i.op i.v8 i.a16).envTick ∧
    ∀ m < n, (State.cycles m (s.accept i.op i.v8 i.a16).envTick).busy = true := by
  rw [exec_eq_runCommand, runCommand_eq_next] at run
  obtain ⟨-, rfl, -⟩ := run
  exact runFuel_eq_cycles _ _

/-- Settles O19: the first cycle accepts the word, and the others are those of `exec_eq_cycles`. -/
theorem execIsTheCycleMachine : Obligations.ExecIsTheCycleMachine := by
  intro i s t idle run
  obtain ⟨n, reached, -⟩ := exec_eq_cycles run
  exact ⟨n + 1, by rw [reached, State.cycles, cycle_presented idle]⟩

/-- Settles O11: the command's one record is its transaction's, and the sink of its one entry is RES_TX. -/
theorem transactPutsTheSampledByteInResTx : Obligations.TransactPutsTheSampledByteInResTx := by
  intro s v a ready
  obtain ⟨t, ts, run, atRest, command, outside, -⟩ := exec_completes (.transact v a) ready
  match ts, command.records, command with
  | [x], _, command =>
    have samples : x.bits.length = 11 := command.samples x (by simp)
    have events : seqEvents s.cfg.lineBind .transact (seqOf s.cfg .transact v (0#8 ++ a)) [x] =
        TxRecord.events s.cfg.lineBind .transact 0 v a x := by
      simp [seqEvents, seqOf]
    exact ⟨t, x, run, atRest, outside, samples, events ▸ command.events, command.results, command.sigacc⟩

end Sys2Proof.Machine
end

section
/-! SUPPORT. A line held at one level (R78, R121; log 10): what every poll sample and every sample of a run on it is, and that
with a stopped time source a poll that waits goes on waiting. -/

namespace Sys2Proof.Machine

variable {s t : State} {b : Bool}

/-! ### The held line -/

/-- The line reaches the block, and the host leaves the run alone (R112, R124, R128). -/
structure State.OnHeld (b : Bool) (s : State) : Prop where
  target : s.target = .held b
  ready : s.rails.ready = true
  quiet : hostQuiet s.host = true

/-- Every level the block reads is the line's. -/
theorem State.OnHeld.sdo (h : s.OnHeld b) : s.sdo = b :=
  sdo_of_given (by simp [State.sdoGiven, Target.level, h.target, h.ready])

theorem micro_target_held (h : s.target = .held b) (tick : Bool) : (s.micro tick).target = .held b := by
  unfold State.micro
  split
  case h_1 => exact h
  case h_2 => simpa using h
  case h_3 => simp [driveStep_target, h, Target.onReference]
  case h_4 => simpa using h
  case h_5 => exact h
  case h_6 => simp [clkLowStep_target, h, Target.onReference]

/-- Nothing that a command does changes the line. -/
theorem State.OnHeld.cycle (h : s.OnHeld b) (busy : s.busy = true) : s.cycle.OnHeld b := by
  obtain ⟨out, -, host⟩ := cycle_outside h.quiet busy
  refine ⟨?_, out.rails ▸ h.ready, host ▸ (hostPins_quiet h.quiet).2⟩
  have held := micro_target_held (s := s.withHost (hostPins s.host).2) h.target s.time.tick
  rw [cycle_micro h.quiet busy, envTick_target, held]
  split <;> rfl

theorem State.OnHeld.accept (target : s.target = .held b) (ready : s.rails.ready = true) (quiet : hostQuiet s.host = true)
    (op : Op) (argV : Byte) (argA : Half) : (s.accept op argV argA).envTick.OnHeld b := by
  have out := accept_outside s op argV argA
  refine ⟨?_, ?_, ?_⟩
  · rw [envTick_target, accept_target, target]
    split <;> rfl
  · rw [State.envTick_rails, out.rails]
    simpa using ready
  · rw [State.envTick_host, out.host]
    exact quiet

/-! ### A stopped time source (R121, I17) -/

/-- A poll that waits for a tick that never comes. -/
structure State.Hanging (s : State) : Prop where
  busy : s.busy = true
  bs : s.bs = .poll
  held : s.OnHeld false
  stopped : s.time.rate = .stopped
  early : s.pollT < s.cfg.tPoll

theorem State.Hanging.cycle (h : s.Hanging) : s.cycle.Hanging ∧ s.cycle.pollT = s.pollT := by
  obtain ⟨busy, bs, held, stopped, early⟩ := h
  obtain ⟨pollT, -, -, waits, -, -, -, -, -, -, -, busy', -⟩ := pollWaitsForHighOrTheBound s busy bs held.quiet
  obtain ⟨out, time, -⟩ := cycle_outside held.quiet busy
  have noTick : s.time.tick = false := by simp [TimeSource.tick, stopped]
  have same : s.cycle.pollT = s.pollT := by simpa [noTick] using pollT
  have rate : s.cycle.time.rate = .stopped := by simp [time, TimeSource.next, stopped]
  exact ⟨⟨busy', (waits held.sdo early).1, held.cycle busy, rate, by rw [same, out.cfg]; exact early⟩, same⟩

theorem State.Hanging.cycles : ∀ (n : Nat) {s : State}, s.Hanging →
    (State.cycles n s).Hanging ∧ (State.cycles n s).pollT = s.pollT
  | 0, _, h => ⟨h, rfl⟩
  | n + 1, _, h => by
    obtain ⟨next, same⟩ := h.cycle
    obtain ⟨later, kept⟩ := State.Hanging.cycles n next
    exact ⟨later, kept.trans same⟩

/-- Settles O29: each cycle of such a poll is followed by another (`State.Hanging.cycles`). -/
theorem stoppedTimeSourceHangsThePoll : Obligations.StoppedTimeSourceHangsThePoll := by
  intro s n busy bs target ready stopped early quiet
  obtain ⟨h, pollT⟩ := State.Hanging.cycles n ⟨busy, bs, ⟨target, ready, quiet⟩, stopped, early⟩
  exact ⟨h.busy, h.bs, pollT⟩

/-! ### What a run on the held line records -/

/-- The event is one of a run on a line held at `b`: each level read is `b`, and each poll ends as it must (R69). -/
def Event.HeldAt (b : Bool) : Event → Prop
  | .pollSample level => level = b
  | .pollExit ended => ended = if b then .ready else .timeout
  | .sample _ level => level = b
  | _ => True

/-- A micro-step that reads `b` records it. -/
theorem micro_heldAt (sdo : s.sdo = b) (tick : Bool) :
    ∃ evs, (s.micro tick).events = s.events ++ evs ∧ ∀ e ∈ evs, e.HeldAt b := by
  unfold State.micro
  split
  case h_1 => exact ⟨[], by simp, by simp⟩
  case h_2 =>
    refine ⟨_, by rw [pollStep_events, List.append_assoc], ?_⟩
    rw [sdo]
    cases b <;> split_ifs <;> simp_all [Event.HeldAt]
  case h_3 => exact ⟨_, driveStep_events s, by simp [Event.HeldAt]⟩
  case h_4 => exact ⟨_, sampleStep_events s, by simp [Event.HeldAt, sdo]⟩
  case h_5 => exact ⟨_, clkHighStep_events s, by simp [Event.HeldAt]⟩
  case h_6 =>
    by_cases hpos : s.pos = 0
    · refine ⟨_, clkLowStep_events_last hpos, ?_⟩
      split <;> simp [Event.HeldAt]
    · exact ⟨_, clkLowStep_events_inner hpos, by simp [Event.HeldAt]⟩

/-- A run from `s` on the line has recorded levels of the line only. -/
structure HeldRun (b : Bool) (s t : State) : Prop where
  held : t.OnHeld b
  recorded : ∃ new, t.events = s.events ++ new ∧ ∀ e ∈ new, e.HeldAt b

theorem HeldRun.cycle (h : HeldRun b s t) (busy : t.busy = true) : HeldRun b s t.cycle := by
  obtain ⟨held, new, events, all⟩ := h
  obtain ⟨evs, more, each⟩ := micro_heldAt (s := t.withHost (hostPins t.host).2) held.sdo t.time.tick
  refine ⟨held.cycle busy, new ++ evs, ?_, fun e he => (List.mem_append.mp he).elim (all e) (each e)⟩
  rw [cycle_micro held.quiet busy, State.envTick_events, more, State.withHost_events, events, List.append_assoc]

/-- A command on the line is such a run. -/
theorem exec_heldRun {i : Instr} (ready : s.Ready) (target : s.target = .held b) (up : s.rails.ready = true)
    (run : exec i s = .next t) : HeldRun b s t := by
  refine exec_induction run (fun _ => ?_) fun _ busy h => h.cycle busy
  exact ⟨.accept target up ready.quiet _ _ _, _, by rw [State.envTick_events, accept_events], by simp [Event.HeldAt]⟩

/-! ### The records of such a run -/

/-- The events of each record of a command are among the command's. -/
theorem record_subset_seqEvents {lb : LineBind} {op : Op} {es : List RomEntry} {ts : List TxRecord} {x : TxRecord}
    (hx : x ∈ ts) (hlen : ts.length = es.length) :
    ∃ k v a, ∀ e ∈ TxRecord.events lb op k v a x, e ∈ seqEvents lb op es ts := by
  obtain ⟨k, hk, rfl⟩ := List.mem_iff_getElem.mp hx
  have here : ((es[k], ts[k]), k) ∈ (es.zip ts).zipIdx := by
    rw [List.mem_zipIdx_iff_getElem?]
    simp [hk, ← hlen]
  exact ⟨k, es[k].value, es[k].addr, fun e he => List.mem_flatMap.mpr ⟨_, here, he⟩⟩

/-- Each sample of a record is recorded. -/
theorem sample_mem_bitsEvents (lb : LineBind) (v a : Byte) {bits : List Bool} {level : Bool} (h : level ∈ bits) :
    ∃ pos, .sample pos level ∈ bitsEvents lb v a bits := by
  rw [← List.zipIdx_map_fst 0 bits] at h
  obtain ⟨p, hp, rfl⟩ := List.mem_map.mp h
  exact ⟨BitVec.ofNat 4 (10 - p.2), List.mem_flatMap.mpr ⟨p, hp, by simp [bitEvents]⟩⟩

/-- A record of a run on the held line. -/
theorem record_of_heldAt {lb : LineBind} {op : Op} {k : Nat} {v a : Byte} {x : TxRecord} (hlen : x.bits.length = 11)
    (h : ∀ e ∈ TxRecord.events lb op k v a x, e.HeldAt b) :
    x.bits = List.replicate 11 b ∧ x.ended = (if b then .ready else .timeout) ∧ (b = true → x.waits = 0) := by
  have polls : ∀ e ∈ pollEvents op k x.waits x.ended, e.HeldAt b := fun e he => h e (by simp [TxRecord.events, he])
  refine ⟨List.eq_replicate_iff.mpr ⟨hlen, fun level hl => ?_⟩, ?_, fun high => ?_⟩
  · obtain ⟨pos, hpos⟩ := sample_mem_bitsEvents lb v a hl
    exact h (.sample pos level) (by simp [TxRecord.events, hpos])
  · refine polls (.pollExit x.ended) ?_
    cases x.ended <;> simp [pollEvents]
  · by_contra waited
    have low : false = b := polls (.pollSample false) (by simp [pollEvents, waited])
    exact absurd (low.trans high) (by decide)

/-- Eleven samples of one level make the byte of that level (R63). -/
theorem resultOf_replicate (b : Bool) : resultOf (List.replicate 11 b) = if b then 0xFF else 0x00 := by
  cases b <;> decide

/-- Settles O28: the records of the command are read off its events, which are those of a run on the line. -/
theorem heldLineStillCompletesEveryCommand : Obligations.HeldLineStillCompletesEveryCommand := by
  intro i s b ready target up
  obtain ⟨t, ts, run, atRest, command, -⟩ := exec_completes i ready
  obtain ⟨-, new, events, all⟩ := exec_heldRun ready target up run
  obtain rfl : new = commandEvents s.cfg i.op i.v8 i.a16 ts :=
    List.append_cancel_left (events.symm.trans command.events_eq)
  refine ⟨t, ts, run, command, atRest.busy, fun x hx => ?_⟩
  obtain ⟨k, v, a, within⟩ := record_subset_seqEvents (lb := s.cfg.lineBind) (op := i.op) hx command.records
  have held : ∀ e ∈ TxRecord.events s.cfg.lineBind i.op k v a x, e.HeldAt b := fun e he =>
    all e (by simp [commandEvents, within e he])
  obtain ⟨bits, ended, waits⟩ := record_of_heldAt (command.samples x hx) held
  exact ⟨bits, ended, waits, by rw [TxRecord.result, bits, resultOf_replicate]⟩

end Sys2Proof.Machine
end

section
/-! SUPPORT. How long a transaction and a command take (R70, R78): the poll ends because the time source ticks, the bit positions
because each of their micro-steps is one of 44. -/

namespace Sys2Proof.Machine

variable {s t : State}

/-! ### An undisturbed command -/

/-- A command in progress that nothing disturbs: a busy block within its sequence, a quiet host, a time source that ticks (R24,
R70, R112). -/
structure State.Undisturbed (s : State) : Prop where
  busy : s.busy = true
  quiet : hostQuiet s.host = true
  fair : s.time.fair = true
  step_lt : s.step.toNat < seqLen s.op

/-- It stands at the start of a transaction (R67). -/
structure State.AtStart (s : State) : Prop extends s.Undisturbed where
  bs : s.bs = .poll
  pos : s.pos = 10
  pollT : s.pollT = 0

theorem SameCommand.refl (s : State) : SameCommand s s := by constructor <;> rfl

theorem SameCommand.trans {u : State} (h : SameCommand s t) (k : SameCommand t u) : SameCommand s u :=
  ⟨k.busy.trans h.busy, k.op.trans h.op, k.argV.trans h.argV, k.argA.trans h.argA, k.cfg.trans h.cfg, k.step.trans h.step,
    k.fv.trans h.fv, k.fa.trans h.fa, k.res.trans h.res, k.sigacc.trans h.sigacc⟩

/-- Every micro-step but the one that ends a transaction goes on with it. -/
theorem micro_same (tick : Bool) (inner : s.bs = .clkl → s.pos ≠ 0) : SameCommand s (s.micro tick) := by
  unfold State.micro
  split
  case h_1 => exact .refl s
  case h_2 => exact pollStep_same tick
  case h_3 => constructor <;> simp
  case h_4 => constructor <;> simp
  case h_5 => constructor <;> simp
  case h_6 hb => rw [clkLowStep_inner (inner hb)]; constructor <;> simp

theorem State.Undisturbed.cycle_same (h : s.Undisturbed) (inner : s.bs = .clkl → s.pos ≠ 0) : SameCommand s s.cycle := by
  obtain ⟨busy, op, argV, argA, cfg, step, fv, fa, res, sigacc⟩ :=
    micro_same (s := s.withHost (hostPins s.host).2) s.time.tick inner
  rw [cycle_micro h.quiet h.busy]
  exact ⟨busy, op, argV, argA, cfg, step, fv, fa, res, sigacc⟩

/-- As long as the block stays busy within its sequence, the next cycle is undisturbed too. -/
theorem State.Undisturbed.next (h : s.Undisturbed) (busy : s.cycle.busy = true)
    (step_lt : s.cycle.step.toNat < seqLen s.cycle.op) : s.cycle.Undisturbed := by
  obtain ⟨-, time, host⟩ := cycle_outside h.quiet h.busy
  exact ⟨busy, host ▸ (hostPins_quiet h.quiet).2, time ▸ fair_next h.fair, step_lt⟩

theorem State.Undisturbed.within (h : s.Undisturbed) (k : SameCommand s s.cycle) : s.cycle.Undisturbed :=
  h.next (k.busy.trans h.busy) (by rw [k.step, k.op]; exact h.step_lt)

/-! ### The poll -/

/-- The ticks of the first `m` cycles from `s`. -/
def State.ticksIn (m : Nat) (s : State) : Nat := (List.range m).countP fun k => (State.cycles k s).time.tick

theorem ticksIn_succ (m : Nat) (s : State) :
    s.ticksIn (m + 1) = (if s.time.tick then 1 else 0) + s.cycle.ticksIn m := by
  rw [State.ticksIn, List.range_succ_eq_map, List.countP_cons, List.countP_map, Nat.add_comm]
  rfl

/-- In the first `n` cycles from `s`, and up to the one after them, the block polls, `poll_t` counts the ticks, and the bound is
not passed (R69, R70). -/
def State.Polls (n : Nat) (s : State) : Prop :=
  (∀ m ≤ n, (State.cycles m s).bs = .poll ∧ (State.cycles m s).pollT = s.pollT + s.ticksIn m) ∧
    s.pollT + s.ticksIn n ≤ s.cfg.tPoll

theorem State.Polls.zero (hb : s.bs = .poll) (h : s.pollT ≤ s.cfg.tPoll) : s.Polls 0 := by
  refine ⟨fun m hm => ?_, h⟩
  obtain rfl : m = 0 := Nat.le_zero.mp hm
  exact ⟨hb, rfl⟩

theorem State.Polls.succ {n : Nat} (hb : s.bs = .poll) (cfg : s.cycle.cfg = s.cfg)
    (pollT : s.cycle.pollT = s.pollT + if s.time.tick then 1 else 0) (h : s.cycle.Polls n) : s.Polls (n + 1) := by
  obtain ⟨polls, bound⟩ := h
  refine ⟨fun m hm => ?_, by rw [ticksIn_succ, ← cfg]; omega⟩
  cases m with
  | zero => exact ⟨hb, rfl⟩
  | succ m =>
    obtain ⟨bs, counted⟩ := polls m (by omega)
    exact ⟨bs, by rw [State.cycles, counted, ticksIn_succ, pollT, Nat.add_assoc]⟩

/-- A poll ends, at the latest at its bound (R69, R70). The induction is on the cycles in which the ticks left to the bound
pass, of which there are finitely many because the time source is fair. -/
theorem State.Undisturbed.poll_ends : ∀ (fuel : Nat) {s : State}, s.Undisturbed → s.bs = .poll → s.pollT ≤ s.cfg.tPoll →
    s.time.cyclesFor (s.cfg.tPoll - s.pollT + 1) ≤ fuel →
    ∃ n, s.Polls n ∧ (State.cycles (n + 1) s).bs = .drive ∧ (State.cycles (n + 1) s).pos = s.pos ∧
      (State.cycles (n + 1) s).Undisturbed ∧ SameCommand s (State.cycles (n + 1) s)
  | 0, s, h, _, _, hfuel => by rw [cyclesFor_next h.fair] at hfuel; omega
  | fuel + 1, s, h, hb, hle, hfuel => by
    obtain ⟨pollT, high, late, early, -⟩ := pollWaitsForHighOrTheBound s h.busy hb h.quiet
    have same : SameCommand s s.cycle := h.cycle_same (by simp [hb])
    have pos : s.cycle.pos = s.pos := by rw [cycle_poll h.quiet h.busy hb]; simp
    have next := h.within same
    by_cases ends : s.sdo = true ∨ s.cfg.tPoll ≤ s.pollT
    · have drive : s.cycle.bs = .drive := by
        cases sdo : s.sdo with
        | true => exact (high sdo).1
        | false => exact (late sdo (ends.resolve_left (by simp [sdo]))).1
      exact ⟨0, .zero hb hle, drive, pos, next, same⟩
    · obtain ⟨low, before⟩ := not_or.mp ends
      have waits : s.cycle.bs = .poll := (early (by simpa using low) (by omega)).1
      obtain ⟨-, time, -⟩ := cycle_outside h.quiet h.busy
      have nearer : s.cycle.time.cyclesFor (s.cycle.cfg.tPoll - s.cycle.pollT + 1) ≤ fuel := by
        rw [cyclesFor_next h.fair] at hfuel
        rw [time, same.cfg, pollT]
        split at hfuel
        next tick =>
          rw [if_pos tick, show s.cfg.tPoll - (s.pollT + 1) + 1 = s.cfg.tPoll - s.pollT by omega]
          omega
        next noTick => rw [if_neg noTick]; exact Nat.le_of_succ_le_succ hfuel
      have bound : s.cycle.pollT ≤ s.cycle.cfg.tPoll := by
        rw [pollT, same.cfg]
        split <;> omega
      obtain ⟨n, polls, drive, kept, undisturbed, later⟩ := next.poll_ends fuel waits bound nearer
      exact ⟨n + 1, .succ hb same.cfg pollT polls, drive, kept.trans pos, undisturbed, same.trans later⟩

/-! ### The bit positions -/

/-- The phases of a bit position (R66). -/
def bitPhases : List Phase := [.drive, .sample, .clkh, .clkl]

/-- A micro-step of a bit position other than the transaction's last is followed by the next of the 44 (R66, R71 to R74). -/
theorem State.Undisturbed.bit_next (h : s.Undisturbed) (hb : s.bs ∈ bitPhases) (left : s.txBudgetLeft ≠ 1) :
    (s.cycle.bs ∈ bitPhases ∧ s.cycle.txBudgetLeft + 1 = s.txBudgetLeft) ∧ SameCommand s s.cycle := by
  have inner (clkl : s.bs = .clkl) : s.pos ≠ 0 := fun hpos => left (by simp [State.txBudgetLeft, clkl, hpos])
  refine ⟨?_, h.cycle_same inner⟩
  simp only [bitPhases, List.mem_cons, List.not_mem_nil, or_false] at hb
  rcases hb with hb | hb | hb | hb
  · simp [cycle_drive h.quiet h.busy hb, State.driveStep, State.txBudgetLeft, hb, bitPhases]
  · simp [cycle_sample h.quiet h.busy hb, State.sampleStep, State.txBudgetLeft, hb, bitPhases]
  · simp [cycle_clkHigh h.quiet h.busy hb, State.clkHighStep, State.txBudgetLeft, hb, bitPhases]
  · have down : s.pos.toNat = (s.pos - 1).toNat + 1 := by have := inner hb; bv_omega
    have drive : s.cycle.bs = .drive ∧ s.cycle.pos = s.pos - 1 := by
      rw [cycle_clkLow h.quiet h.busy hb, clkLowStep_inner (s := s.withHost (hostPins s.host).2) (inner hb)]
      exact ⟨rfl, rfl⟩
    simp only [State.txBudgetLeft, drive, hb, bitPhases, List.mem_cons, true_or, true_and]
    omega

/-- With one micro-step left the transaction is at its last clock low (R75). -/
theorem txBudgetLeft_eq_one (hb : s.bs ∈ bitPhases) (left : s.txBudgetLeft = 1) : s.bs = .clkl ∧ s.pos = 0 := by
  simp only [bitPhases, List.mem_cons, List.not_mem_nil, or_false] at hb
  rcases hb with hb | hb | hb | hb <;> simp only [State.txBudgetLeft, hb] at left
  · omega
  · omega
  · omega
  · exact ⟨hb, BitVec.eq_of_toNat_eq (by simpa using left)⟩

/-- The micro-steps left of a transaction's bit positions follow each other up to the last clock low. -/
theorem State.Undisturbed.bits_run : ∀ (left : Nat) {s : State}, s.Undisturbed → s.bs ∈ bitPhases →
    s.txBudgetLeft = left + 1 →
    (∀ m ≤ left, (State.cycles m s).bs ∈ bitPhases) ∧ (State.cycles left s).bs = .clkl ∧ (State.cycles left s).pos = 0 ∧
      (State.cycles left s).Undisturbed ∧ SameCommand s (State.cycles left s)
  | 0, s, h, hb, hleft => by
    obtain ⟨bs, pos⟩ := txBudgetLeft_eq_one hb hleft
    refine ⟨fun m hm => ?_, bs, pos, h, .refl s⟩
    obtain rfl : m = 0 := Nat.le_zero.mp hm
    exact hb
  | left + 1, s, h, hb, hleft => by
    obtain ⟨⟨bs, fewer⟩, same⟩ := h.bit_next hb (by omega)
    obtain ⟨phases, clkl, pos, undisturbed, later⟩ := (h.within same).bits_run left bs (by omega)
    refine ⟨fun m hm => ?_, clkl, pos, undisturbed, same.trans later⟩
    cases m with
    | zero => exact hb
    | succ m => exact phases m (by omega)

/-! ### One transaction -/

/-- The command of `s` stands in `t` at the start of its next transaction. -/
structure NextStarts (s t : State) : Prop where
  start : t.AtStart
  step : t.step = s.step + 1
  step_toNat : t.step.toNat = s.step.toNat + 1
  op : t.op = s.op
  cfg : t.cfg = s.cfg

/-- The cycle that ends a transaction ends the command or starts its next transaction (R76). -/
theorem State.Undisturbed.tx_ends (h : s.Undisturbed) (hb : s.bs = .clkl) (hpos : s.pos = 0) :
    (s.cycle.bs = .idle ∧ s.cycle.busy = false) ∨ NextStarts s s.cycle := by
  have within := h.step_lt
  have cycle := cycle_clkLow h.quiet h.busy hb
  by_cases last : s.step.toNat + 1 = seqLen s.op
  · rw [cycle]
    exact .inl (clkLowStep_done hpos last)
  · have more : s.step.toNat + 1 < seqLen s.op := by omega
    obtain ⟨bs, pos, pollT, busy, step⟩ := clkLowStep_next_poll (s := s.withHost (hostPins s.host).2) hpos more
    have op : s.cycle.op = s.op := by rw [cycle]; simp
    have cfg : s.cycle.cfg = s.cfg := (cycle_outside h.quiet h.busy).1.cfg
    have stepped : s.cycle.step = s.step + 1 := by rw [cycle]; exact step
    have count : s.cycle.step.toNat = s.step.toNat + 1 := by rw [stepped, step_succ_toNat more]
    have next := h.next (by rw [cycle]; exact busy.trans h.busy) (by rw [count, op]; exact more)
    exact .inr ⟨⟨next, cycle ▸ bs, cycle ▸ pos, cycle ▸ pollT⟩, stepped, count, op, cfg⟩

/-- From its start a transaction polls at most to its bound, then takes 44 micro-steps, and then the command is done or its next
transaction starts (R70, R78). -/
theorem State.AtStart.transaction_ends (h : s.AtStart) : ∃ n, s.Polls n ∧
    (∀ m, 1 ≤ m → m ≤ 44 → (State.cycles (n + m) s).bs ∈ bitPhases) ∧
    (((State.cycles (n + 45) s).bs = .idle ∧ (State.cycles (n + 45) s).busy = false) ∨
      NextStarts s (State.cycles (n + 45) s)) := by
  obtain ⟨n, polls, drive, pos, undisturbed, same⟩ :=
    h.poll_ends _ h.bs (by rw [h.pollT]; exact Nat.zero_le _) (Nat.le_refl _)
  have left : (State.cycles (n + 1) s).txBudgetLeft = 43 + 1 := by
    simp [State.txBudgetLeft, drive, pos, h.pos]
  obtain ⟨phases, clkl, last, lastly, later⟩ := undisturbed.bits_run 43 (by simp [drive, bitPhases]) left
  rw [← cycles_add] at clkl last lastly later
  refine ⟨n, polls, fun m hm hm' => ?_, ?_⟩
  · have here := phases (m - 1) (by omega)
    rwa [← cycles_add, show n + 1 + (m - 1) = n + m by omega] at here
  · rw [show n + 45 = n + 1 + 43 + 1 by omega, cycles_add (n + 1 + 43) 1]
    refine (lastly.tx_ends clkl last).imp_right fun next => ?_
    have whole := same.trans later
    exact ⟨next.start, next.step.trans (by rw [whole.step]), next.step_toNat.trans (by rw [whole.step]),
      next.op.trans whole.op, next.cfg.trans whole.cfg⟩

/-- Settles O48: the invariant puts a poll at the first bit position and within the sequence. -/
theorem transactionEndsWithinItsBound : Obligations.TransactionEndsWithinItsBound := by
  intro s inv busy hb pollT quiet fair
  have start : s.AtStart := ⟨⟨busy, quiet, fair, inv.step_lt busy⟩, hb, (inv.poll_start hb).1, pollT⟩
  obtain ⟨n, ⟨polls, bound⟩, phases, after⟩ := start.transaction_ends
  simp only [pollT, Nat.zero_add] at polls bound
  exact ⟨n, polls, bound, phases, after.imp_right fun next => ⟨next.start.bs, next.step⟩⟩

/-! ### One command, with a tick in every cycle -/

/-- The time source ticks in every cycle (R70, D5). -/
def TimeSource.EveryCycle (x : TimeSource) : Prop := x.rate = .every 0 ∧ x.wait = 0

theorem TimeSource.EveryCycle.tick {x : TimeSource} (h : x.EveryCycle) : x.tick = true := by
  simp [TimeSource.tick, h.1, h.2]

theorem TimeSource.EveryCycle.next {x : TimeSource} (h : x.EveryCycle) : x.next.EveryCycle := by
  simp [TimeSource.next, TimeSource.EveryCycle, TimeSource.reload, TimeSource.gap, h.1, h.2]

/-- Time goes on in every cycle, whatever the block and the host do (R70). -/
theorem cycle_time (s : State) : s.cycle.time = s.time.next := by
  have clk (p : Pins) (tick : Bool) (u : State) : (u.clk p tick).time = u.time := by
    rcases State.clk_cases p tick u with hc | ⟨-, hc | hc⟩ | ⟨-, hc | hc⟩ <;> rw [hc]
    · unfold State.resetCycle
      split <;> rfl
    · exact (micro_outside tick u).time
    · exact (micro_outside tick _).time
    · unfold State.presentIdle
      split
      · exact (accept_outside u _ _ _).time
      · rfl
  exact congrArg TimeSource.next (clk _ _ _)

theorem cycles_everyCycle : ∀ (n : Nat) {s : State}, s.time.EveryCycle → (State.cycles n s).time.EveryCycle
  | 0, _, h => h
  | n + 1, s, h => cycles_everyCycle n (by rw [cycle_time]; exact h.next)

theorem ticksIn_everyCycle (h : s.time.EveryCycle) (n : Nat) : s.ticksIn n = n := by
  have all := List.countP_eq_length.mpr fun k (_ : k ∈ List.range n) => (cycles_everyCycle k h).tick
  exact all.trans List.length_range

/-- From the start of a transaction the command is done within the bound of the transactions it has left (R78). -/
theorem State.AtStart.command_ends : ∀ (left : Nat) {s : State}, s.AtStart → s.time.EveryCycle →
    seqLen s.op = s.step.toNat + left → ∃ n ≤ left * (s.cfg.tPoll + 45), (State.cycles n s).busy = false
  | 0, s, h, _, hleft => absurd h.step_lt (by omega)
  | left + 1, s, h, every, hleft => by
    obtain ⟨n, ⟨-, bound⟩, -, after⟩ := h.transaction_ends
    rw [h.pollT, ticksIn_everyCycle every, Nat.zero_add] at bound
    rw [Nat.succ_mul]
    rcases after with ⟨-, done⟩ | next
    · exact ⟨n + 45, by omega, done⟩
    · obtain ⟨m, hm, done⟩ := next.start.command_ends left (cycles_everyCycle _ every)
        (by rw [next.op, next.step_toNat]; omega)
      rw [next.cfg] at hm
      exact ⟨n + 45 + m, by omega, by rw [cycles_add]; exact done⟩

/-- An accepted command stands at the start of its first transaction (R53). -/
theorem accept_atStart (ready : s.Ready) (op : Op) (argV : Byte) (argA : Half) :
    (s.accept op argV argA).envTick.AtStart ∧ (s.accept op argV argA).envTick.step = 0 := by
  obtain ⟨bs, pos, pollT⟩ := startEntry_poll (s := State.emit (.cmdAccept op argV argA) { s with
    op := op, argV := argV, argA := argA, step := 0, busy := true,
    sigacc := if op = Op.readSig then 0 else s.sigacc, rails := s.rails.atCommand }) (seqLen_pos op)
  have out := accept_outside s op argV argA
  have running := accept_running s op argV argA
  have step : (s.accept op argV argA).step = 0 := State.startEntry_step _
  refine ⟨⟨⟨running.busy, out.host ▸ ready.quiet, ?_, ?_⟩, bs, pos, pollT⟩, step⟩
  · rw [State.envTick_time, out.time]
    exact fair_next ready.fair
  · rw [State.envTick_step, step, running.op_eq]
    exact seqLen_pos op

/-- Settles O49: one cycle accepts the word, and the first idle state is no later than the one `command_ends` finds. -/
theorem commandEndsWithinItsBound : Obligations.CommandEndsWithinItsBound := by
  intro i s c ready time
  obtain ⟨t, ts, run, atRest, -⟩ := exec_completes i ready
  obtain ⟨n, rfl, before⟩ := exec_eq_cycles run
  obtain ⟨start, step⟩ := accept_atStart ready i.op i.v8 i.a16
  have running := accept_running s i.op i.v8 i.a16
  have every : (s.accept i.op i.v8 i.a16).envTick.time.EveryCycle := by
    rw [State.envTick_time, (accept_outside s i.op i.v8 i.a16).time, time]
    exact TimeSource.EveryCycle.next ⟨rfl, rfl⟩
  obtain ⟨m, hm, done⟩ := start.command_ends (seqLen i.op) every (by rw [step, running.op_eq]; simp)
  rw [running.cfg_eq] at hm
  have first : n ≤ m := by
    by_contra later
    exact Bool.noConfusion ((before m (by omega)).symm.trans done)
  have presented : State.cycles (n + 1) { s with host := .present (encode i) :: s.host } =
      State.cycles n (s.accept i.op i.v8 i.a16).envTick := by
    rw [State.cycles, cycle_presented ready.idle]
  exact ⟨n + 1, by omega, presented ▸ run, presented ▸ atRest.busy⟩

end Sys2Proof.Machine
end
section
/-! SUPPORT. The signature reader (R80, R81): of a sub-sequence's four results the last one is folded into the accumulator, which
acceptance has cleared, and the two folds are the two bytes of RES_SIG. -/

namespace Sys2Proof.Machine

variable {s : State}

/-- A sub-sequence folds its fourth result into the accumulator and discards the other three (R56, R80). -/
theorem seqResults_sigEntries (k : KSig) (idx : Byte) (x₀ x₁ x₂ x₃ : TxRecord) (r : Results × Half) :
    seqResults (sigEntries k idx) [x₀, x₁, x₂, x₃] r = (r.1, sigFold r.2 x₃.result) := rfl

/-- The sub-sequence for index 1, then the one for index 2 (R56, R80). -/
theorem seqResults_readSig (cfg : Config) (argV : Byte) (argA : Half) (x₀ x₁ x₂ x₃ x₄ x₅ x₆ x₇ : TxRecord)
    (r : Results × Half) :
    seqResults (seqOf cfg .readSig argV argA) [x₀, x₁, x₂, x₃, x₄, x₅, x₆, x₇] r =
      seqResults (sigEntries cfg.kSig 0x02) [x₄, x₅, x₆, x₇]
        (seqResults (sigEntries cfg.kSig 0x01) [x₀, x₁, x₂, x₃] r) := rfl

/-- READ_SIG writes the fourth result of each sub-sequence into RES_SIG, index 1 above index 2, whatever the accumulator held when
it was accepted (R53, R81). -/
theorem finishResults_readSig (cfg : Config) (argV : Byte) (argA : Half) (x₀ x₁ x₂ x₃ x₄ x₅ x₆ x₇ : TxRecord) :
    finishResults .readSig
        (seqResults (seqOf cfg .readSig argV argA) [x₀, x₁, x₂, x₃, x₄, x₅, x₆, x₇] (acceptResults .readSig s)) =
      { s.res with sig := x₃.result ++ x₇.result, sigValid := true } := by
  rw [seqResults_readSig, seqResults_sigEntries, seqResults_sigEntries, ← sigFold_twice]
  rfl

/-- Settles O12: the eight records of the command are those of its two sub-sequences, and `finishResults_readSig` says what they
leave in RES_SIG. -/
theorem readSignatureIsBigEndian : Obligations.ReadSignatureIsBigEndian := by
  intro s ready
  obtain ⟨t, ts, run, atRest, command, outside, -⟩ := exec_completes .rdsig ready
  match ts, command.records, command with
  | [x₀, x₁, x₂, x₃, x₄, x₅, x₆, x₇], _, command =>
    have res : t.res = { s.res with sig := x₃.result ++ x₇.result, sigValid := true } :=
      command.results.trans (finishResults_readSig ..)
    exact ⟨t, x₀.result, x₁.result, x₃.result, x₂.result, x₄.result, x₅.result, x₆.result, x₇.result, run, atRest, outside,
      command.txView_events, res⟩

end Sys2Proof.Machine
end

section
/-! SUPPORT. The fuse sequencer (R84, R85, R86): which results READ_FUSES stores, what a fuse write leaves in a reference target
in step, and that READ_FUSES after it returns just that. -/

namespace Sys2Proof.Machine

variable {s : State} {r : RefTarget} {x : Byte}

/-! ### The two commands -/

/-- Of the three results of each bank READ_FUSES stores the last, and it folds none into the signature accumulator (R56, R84). -/
theorem seqResults_readFuses (cfg : Config) (argV : Byte) (argA : Half) (x₀ x₁ x₂ x₃ x₄ x₅ x₆ x₇ x₈ : TxRecord)
    (p : Results × Half) :
    seqResults (seqOf cfg .readFuses argV argA) [x₀, x₁, x₂, x₃, x₄, x₅, x₆, x₇, x₈] p =
      ({ p.1 with
        lfuse := x₂.result, lfuseValid := true, hfuse := x₅.result, hfuseValid := true,
        efuse := x₈.result, efuseValid := true }, p.2) := rfl

/-- Settles O13: the nine records of the command are three for each bank, and `seqResults_readFuses` says which are stored. -/
theorem readFusesStoresThreeBanks : Obligations.ReadFusesStoresThreeBanks := by
  intro s ready
  obtain ⟨t, ts, run, atRest, command, outside, -⟩ := exec_completes .rdfuses ready
  match ts, command.records, command with
  | [x₀, x₁, x₂, x₃, x₄, x₅, x₆, x₇, x₈], _, command =>
    have results := seqResults_readFuses s.cfg 0 0 x₀ x₁ x₂ x₃ x₄ x₅ x₆ x₇ x₈ (acceptResults .readFuses s)
    exact ⟨t, x₀.result, x₁.result, x₂.result, x₃.result, x₄.result, x₅.result, x₆.result, x₇.result, x₈.result, run, atRest,
      outside, command.txView_events, command.results.trans (congrArg Prod.fst results),
      command.sigacc.trans (congrArg Prod.snd results)⟩

/-- Settles O14: what `wrfuse_completes` says of a fuse write to any address. -/
theorem writeFuseSendsFourTransactions : Obligations.WriteFuseSendsFourTransactions := by
  intro s addr value ready
  obtain ⟨t, r₀, r₁, r₂, r₃, run, atRest, outside, res, sigacc, view⟩ := wrfuse_completes addr value ready
  exact ⟨t, r₀, r₁, r₂, r₃, run, atRest, outside, view, res, sigacc⟩

/-! ### What a fuse write leaves in the target -/

/-- A target after the four transactions of a fuse write (R47, R85). -/
def RefTarget.fuseWritten (r : RefTarget) (addr : Half) (x : Byte) : RefTarget :=
  (((r.seen 0x40 0x4C).seen x 0x2C).seen 0x00 (highByte addr)).seen 0x00 (lowByte addr)

/-- A target with its storage as it was, in the mode of a fuse write, and its data latch loaded (R47). -/
def RefTarget.loaded (r : RefTarget) (x last : Byte) : RefTarget := { r.latched 0x40 r.idx last with dat := x }

/-- The target has heard the transactions of WRITE_FUSE. -/
theorem RefTarget.seenAll_writeFuse (r : RefTarget) (cfg : Config) (x : Byte) (addr : Half) {ts : List TxRecord}
    (records : ts.length = (seqOf cfg .writeFuse x addr).length) :
    r.seenAll (seqView (seqOf cfg .writeFuse x addr) ts) = r.fuseWritten addr x := by
  match ts, records with
  | [_, _, _, _], _ => rfl

/-- The data transaction of a fuse write (R47). -/
theorem RefTarget.latched_seen_data (hstep : r.inStep = true) (l x : Byte) :
    (r.latched 0x40 r.idx l).seen x 0x2C = r.loaded x 0x2C :=
  RefTarget.seen_of_latch (r := r.latched 0x40 r.idx l) hstep
    (RefTarget.mutate_of_addr (by decide) (by decide) (by decide) _)

/-- An address strobe of a fuse write, to a byte that loads no latch and ends no mutation (R47). -/
theorem RefTarget.loaded_seen_strobe (hstep : r.inStep = true) {a : Byte} (h4C : a ≠ 0x4C) (h0C : a ≠ 0x0C) (h2C : a ≠ 0x2C)
    (h6C : a ≠ 0x6C) (h7C : a ≠ 0x7C) (h6E : a ≠ 0x6E) (l v : Byte) : (r.loaded x l).seen v a = r.loaded x a := by
  have latch : (r.loaded x l).rested.latch v a = (r.loaded x l).rested := by
    simp only [RefTarget.latch, h4C, h0C, h2C, if_false]
  rw [RefTarget.seen_of_latch (r := r.loaded x l) hstep (RefTarget.mutate_of_addr h6C h7C h6E _), latch]
  rfl

/-- Only the last transaction of a fuse write can change the storage (R47, R85). -/
theorem RefTarget.fuseWritten_eq (hstep : r.inStep = true) {addr : Half} (x : Byte)
    (high : highByte addr ∉ [0x4C, 0x0C, 0x2C, 0x6C, 0x7C, 0x6E]) :
    r.fuseWritten addr x = (r.loaded x (highByte addr)).seen 0x00 (lowByte addr) := by
  simp only [List.mem_cons, List.not_mem_nil, or_false, not_or] at high
  obtain ⟨h4C, h0C, h2C, h6C, h7C, h6E⟩ := high
  rw [RefTarget.fuseWritten, RefTarget.seen_mode hstep, RefTarget.latched_seen_data hstep,
    RefTarget.loaded_seen_strobe hstep h4C h0C h2C h6C h7C h6E]

/-- A transaction of a target in step, its latch loaded and its mutation made (R47). -/
theorem RefTarget.seen_of_inStep (hstep : r.inStep = true) (v a : Byte) :
    r.seen v a = ({ (r.rested.latch v a).mutate a (Config.freeBusy 0) with prev := some a } : RefTarget).rested := by
  have hstep' : r.rested.inStep = true := hstep
  rw [RefTarget.seen, RefTarget.finish, if_pos hstep']

/-- A write to the low bank stores its value there and nowhere else (R47, R86). -/
theorem RefTarget.fuseWritten_lfuse (hstep : r.inStep = true) (x : Byte) :
    r.fuseWritten Config.lfuse x = { r.loaded x 0x6C with lf := x } := by
  rw [RefTarget.fuseWritten_eq hstep x (by decide), RefTarget.seen_of_inStep (r := r.loaded x _) hstep]
  rfl

/-- A write to the high bank stores its value there and nowhere else (R47, R86). -/
theorem RefTarget.fuseWritten_hfuse (hstep : r.inStep = true) (x : Byte) :
    r.fuseWritten Config.hfuse x = { r.loaded x 0x7C with hf := x } := by
  rw [RefTarget.fuseWritten_eq hstep x (by decide), RefTarget.seen_of_inStep (r := r.loaded x _) hstep]
  rfl

/-- A write to the extended bank stores its value there and nowhere else (R47, R86). -/
theorem RefTarget.fuseWritten_efuse (hstep : r.inStep = true) (x : Byte) :
    r.fuseWritten Config.efuse x = { r.loaded x 0x6E with ef := x } := by
  rw [RefTarget.fuseWritten_eq hstep x (by decide), RefTarget.seen_of_inStep (r := r.loaded x _) hstep]
  rfl

/-! ### One command after another -/

/-- A completed command leaves a state that is ready for the next one (R70, R112). -/
theorem exec_completes_ready (i : Instr) (ready : s.Ready) :
    ∃ t ts, exec i s = .next t ∧ t.Ready ∧ CommandRun i.op i.v8 i.a16 s t ts ∧ SameOutside s t := by
  obtain ⟨t, ts, run, atRest, command, outside, quiet, fair, -⟩ := exec_completes i ready
  exact ⟨t, ts, run, ⟨atRest.busy, outside.mark.trans ready.unmarked, quiet, fair⟩, command, outside⟩

/-- Two commands in a row on a powered-up target in step both complete; if no poll timed out, the second has the answers of the
target that has seen the first (R46, R47). -/
theorem exec_pair_answered (i j : Instr) (ready : s.Ready) (target : s.target = .reference r) (inStep : r.inStep = true)
    (up : s.rails.ready = true) :
    ∃ t u ts us, exec i s = .next t ∧ exec j t = .next u ∧ CommandRun i.op i.v8 i.a16 s t ts ∧
      CommandRun j.op j.v8 j.a16 t u us ∧ t.cfg = s.cfg ∧
      ((commandEvents s.cfg i.op i.v8 i.a16 ts ++ commandEvents t.cfg j.op j.v8 j.a16 us).any Event.isPollTimeout = false →
        (r.rested.seenAll (seqView (seqOf s.cfg i.op i.v8 i.a16) ts)).Answered
          (seqView (seqOf t.cfg j.op j.v8 j.a16) us) ∧
        (r.rested.seenAll (seqView (seqOf s.cfg i.op i.v8 i.a16) ts)).inStep = true) := by
  obtain ⟨t, ts, run, ready', command, outside⟩ := exec_completes_ready i ready
  obtain ⟨u, us, run', -, command', -⟩ := exec_completes_ready j ready'
  have up' : t.rails.ready = true := by rw [outside.rails, Rails.atCommand_ready, up]
  refine ⟨t, u, ts, us, run, run', command, command', outside.cfg, fun inTime => ?_⟩
  rw [List.any_append, Bool.or_eq_false_iff] at inTime
  obtain ⟨r₁, first⟩ := exec_heard ready target inStep up run command inTime.1
  obtain ⟨r₂, second⟩ := exec_heard ready' first.target first.inStep up' run' command' inTime.2
  rw [← txView_commandEvents, ← first.seen]
  exact ⟨second.answered_command, first.inStep⟩

/-- READ_FUSES after a fuse write returns the fuse bytes of the target as the write left it (R86). -/
theorem fuseWrite_then_read (ready : s.Ready) (target : s.target = .reference r) (inStep : r.inStep = true)
    (up : s.rails.ready = true) (kRf : s.cfg.kRf = .standard) {addr : Half} {w : RefTarget}
    (written : r.rested.fuseWritten addr x = w) :
    ∃ t u new, exec (.wrfuse addr x) s = .next t ∧ exec .rdfuses t = .next u ∧ u.events = s.events ++ new ∧
      (new.any Event.isPollTimeout = false → u.res.lfuse = w.lf ∧ u.res.hfuse = w.hf ∧ u.res.efuse = w.ef) := by
  obtain ⟨t, u, ts, us, run, run', command, command', cfg, answered⟩ :=
    exec_pair_answered (.wrfuse addr x) .rdfuses ready target inStep up
  have events := command'.events_eq
  rw [command.events_eq, List.append_assoc] at events
  refine ⟨t, u, _, run, run', events, fun inTime => ?_⟩
  obtain ⟨heard, inStep'⟩ := answered inTime
  have seen := (RefTarget.seenAll_writeFuse r.rested s.cfg x addr command.records).trans written
  have kRf' : t.cfg.kRf = .standard := cfg ▸ kRf
  rw [command'.results]
  exact fuses_of_answered (seen ▸ inStep') kRf' command'.records (seen ▸ heard)

/-- Settles O38: each named write stores its value in its own bank, and READ_FUSES reads all three back. -/
theorem fuseWriteThenReadRoundTrip : Obligations.FuseWriteThenReadRoundTrip := by
  intro s r x ready target inStep up kRf
  exact ⟨fuseWrite_then_read ready target inStep up kRf (RefTarget.fuseWritten_lfuse (r := r.rested) inStep x),
    fuseWrite_then_read ready target inStep up kRf (RefTarget.fuseWritten_hfuse (r := r.rested) inStep x),
    fuseWrite_then_read ready target inStep up kRf (RefTarget.fuseWritten_efuse (r := r.rested) inStep x)⟩

end Sys2Proof.Machine
end

section
/-! SUPPORT. The lock reader and its decoder (R88, R89, R90): which result READ_LOCK stores, and that the decoder reads bits 1:0 of
it and no other. -/

namespace Sys2Proof.Machine

/-- Of its three results READ_LOCK stores the last, and it folds none into the signature accumulator (R56, R88). -/
theorem seqResults_readLock (cfg : Config) (argV : Byte) (argA : Half) (x₀ x₁ x₂ : TxRecord) (p : Results × Half) :
    seqResults (seqOf cfg .readLock argV argA) [x₀, x₁, x₂] p =
      ({ p.1 with lock := x₂.result, lockValid := true }, p.2) := rfl

/-- Settles O16: the three records of the command are those of its ROM entries, and `seqResults_readLock` says which is stored. -/
theorem readLockStoresTheThirdByte : Obligations.ReadLockStoresTheThirdByte := by
  intro s ready
  obtain ⟨t, ts, run, atRest, command, outside, -⟩ := exec_completes .rdlock ready
  obtain ⟨x₀, x₁, x₂, rfl⟩ := List.length_eq_three.mp command.records
  have results := seqResults_readLock s.cfg 0 0 x₀ x₁ x₂ (acceptResults .readLock s)
  exact ⟨t, x₀.result, x₁.result, x₂.result, run, atRest, outside, command.txView_events,
    command.results.trans (congrArg Prod.fst results), command.sigacc.trans (congrArg Prod.snd results)⟩

/-- The decoder's first output is read off bits 1:0 (R89). -/
theorem lb1Prog_eq_low_bits (v : Byte) : lb1Prog v = !(v.extractLsb' 0 2).getLsbD 0 := by
  simp [lb1Prog]

/-- The decoder's second output is read off bits 1:0 (R89). -/
theorem lb2Prog_eq_low_bits (v : Byte) : lb2Prog v = !(v.extractLsb' 0 2).getLsbD 1 := by
  simp [lb2Prog]

/-- Settles O35: both outputs are functions of bits 1:0, so each row of the table is their value at one pair of bits. -/
theorem lockDecoderTruthTable : Obligations.LockDecoderTruthTable := by
  intro v
  rw [lb1Prog_eq_low_bits, lb2Prog_eq_low_bits]
  refine ⟨fun row => ?_, fun row => ?_, fun row => ?_, fun row => ?_⟩ <;> rw [row] <;> decide

end Sys2Proof.Machine
end

section
/-! SUPPORT. The chip erase (R47, R91, R92): that ERASE keeps none of its results, what it leaves in a reference target in step,
and that READ_LOCK after it finds both lock bits unprogrammed. -/

namespace Sys2Proof.Machine

variable {r : RefTarget}

/-- ERASE keeps none of its three results and folds none into the signature accumulator (R56, R91). -/
theorem seqResults_erase (cfg : Config) (argV : Byte) (argA : Half) (x₀ x₁ x₂ : TxRecord) (p : Results × Half) :
    seqResults (seqOf cfg .erase argV argA) [x₀, x₁, x₂] p = p := rfl

/-- Settles O17: the three records of the command are those of its ROM entries, and `seqResults_erase` says that none is kept. -/
theorem eraseSendsThreeTransactions : Obligations.EraseSendsThreeTransactions := by
  intro s ready
  obtain ⟨t, ts, run, atRest, command, outside, -⟩ := exec_completes .erase ready
  obtain ⟨x₀, x₁, x₂, rfl⟩ := List.length_eq_three.mp command.records
  have results := seqResults_erase s.cfg 0 0 x₀ x₁ x₂ (acceptResults .erase s)
  exact ⟨t, x₀.result, x₁.result, x₂.result, run, atRest, outside, command.txView_events,
    command.results.trans (congrArg Prod.fst results), command.sigacc.trans (congrArg Prod.snd results)⟩

/-! ### What a chip erase leaves in the target -/

/-- A target after a chip erase: the lock bits unprogrammed, the flash erased, the rest of its storage as it was (R47). -/
def RefTarget.chipErased (r : RefTarget) : RefTarget :=
  { r.latched 0x80 r.idx 0x6C with lock := r.lock ||| 0x03, erased := true }

/-- The first strobe of a chip erase loads no latch and stores nothing (R47). -/
theorem RefTarget.latched_seen_eraseStrobe (hstep : r.inStep = true) (c i l v : Byte) :
    (r.latched c i l).seen v 0x64 = r.latched c i 0x64 :=
  RefTarget.seen_of_latch (r := r.latched c i l) hstep (RefTarget.mutate_of_addr (by decide) (by decide) (by decide) _)

/-- The second strobe, right after the first in the mode of a chip erase, is the one that erases (R47). -/
theorem RefTarget.latched_seen_erase (hstep : r.inStep = true) (v : Byte) :
    (r.latched 0x80 r.idx 0x64).seen v 0x6C = r.chipErased := by
  rw [RefTarget.seen_of_inStep (r := r.latched 0x80 r.idx 0x64) hstep]
  rfl

/-- A target in step that has heard the transactions of ERASE is erased (R47, R91). -/
theorem RefTarget.seenAll_erase (hstep : r.inStep = true) (cfg : Config) (argV : Byte) (argA : Half) {ts : List TxRecord}
    (records : ts.length = (seqOf cfg .erase argV argA).length) :
    r.seenAll (seqView (seqOf cfg .erase argV argA) ts) = r.chipErased := by
  obtain ⟨x₀, x₁, x₂, rfl⟩ := List.length_eq_three.mp records
  calc r.seenAll (seqView (seqOf cfg .erase argV argA) [x₀, x₁, x₂])
      = ((r.seen 0x80 0x4C).seen 0x00 0x64).seen 0x00 0x6C := rfl
    _ = r.chipErased := by
      rw [RefTarget.seen_mode hstep, RefTarget.latched_seen_eraseStrobe hstep, RefTarget.latched_seen_erase hstep]

/-! ### The lock byte after it -/

/-- Bits 1:0 of a lock byte after a chip erase are 1, so both decoder outputs are 0 (R89). -/
theorem lockDecoder_of_erased (lock : Byte) : lb1Prog (lock ||| 0x03) = false ∧ lb2Prog (lock ||| 0x03) = false := by
  simp [lb1Prog, lb2Prog]

/-- Settles O39: READ_LOCK has the answer of the target that has heard ERASE (`exec_pair_answered`), which is erased. -/
theorem eraseThenReadLockIsUnprogrammed : Obligations.EraseThenReadLockIsUnprogrammed := by
  intro s r ready target inStep up
  obtain ⟨t, u, ts, us, run, run', command, command', -, answered⟩ :=
    exec_pair_answered .erase .rdlock ready target inStep up
  have events := command'.events_eq
  rw [command.events_eq, List.append_assoc] at events
  refine ⟨t, u, _, run, run', events, fun inTime => ?_⟩
  obtain ⟨heard, inStep'⟩ := answered inTime
  have seen := RefTarget.seenAll_erase (r := r.rested) inStep s.cfg 0 0 command.records
  have lock : u.res.lock = r.lock ||| 0x03 := by
    rw [command'.results]
    exact lock_of_answered (seen ▸ inStep') command'.records (seen ▸ heard)
  rw [lock]
  exact ⟨rfl, lockDecoder_of_erased r.lock⟩

end Sys2Proof.Machine
end

section
/-! SUPPORT. The Session Controller (R93 to R104): where it goes after `Identifying`, and what each of its steps is. -/

namespace Sys2Proof.Machine

variable {s : State}

/-! ### The precedence of R99 -/

/-- Settles O43: the mode decides first, then whether R96's table has the signature. -/
theorem identifyingDispatchesByPrecedence : Obligations.IdentifyingDispatchesByPrecedence := by
  have six : ∀ sig ∈ [(0x910B : Half), 0x9108, 0x9207, 0x9206, 0x930C, 0x930B], leaveIdentifying .writeDefaults sig =
      (.writing, [.wrlfuse 0x62, .wrhfuse 0xDF, .wrefuse 0xFF]) := by
    simp [leaveIdentifying, lookupDevice, deviceTable, List.lookup, writeCommands]
  intro sig
  refine ⟨rfl, rfl, ?_, six sig, fun unknown => ?_⟩
  · rintro rfl; rfl
  · have notFound : lookupDevice sig = none := by
      rw [lookupDevice, List.lookup_eq_none_iff]
      simpa [deviceTable] using unknown
    rw [leaveIdentifying, notFound]
    rfl

/-! ### One step of a session -/

/-- An active session has the step of an idle block, as long as the host drives no port (R93). -/
theorem step_session (unmarked : s.mark = none) (idle : s.busy = false) (waiting : portActFirst s.host = false)
    (active : s.sess.phase ≠ .idle) : step s = sessionStep s := by
  rw [step_idle unmarked idle, idleStep, waiting, if_neg Bool.false_ne_true, if_neg active]

theorem sessionStep_power {a : PowerAct} {rest : List PowerAct} (h : s.sess.power = a :: rest) :
    sessionStep s = .next { s.powerAct a with sess := { s.sess with power := rest } } := by
  rw [sessionStep, h]

theorem sessionStep_command {i : Instr} {rest : List Instr} (power : s.sess.power = []) (todo : s.sess.todo = i :: rest) :
    sessionStep s = exec i { s with sess := { s.sess with todo := rest } } := by
  rw [sessionStep, power, todo]

theorem sessionStep_advance (power : s.sess.power = []) (todo : s.sess.todo = []) (phase : s.sess.phase ≠ .identifying) :
    sessionStep s = .next { s with sess := s.sess.advance } := by
  rw [sessionStep, power, todo]
  exact if_neg phase

/-- With a value in RES_SIG, `Identifying` is left with that value, and nothing is a fault (R28, R98). -/
theorem sessionStep_identified (power : s.sess.power = []) (todo : s.sess.todo = []) (phase : s.sess.phase = .identifying)
    (valid : s.res.sigValid = true) : sessionStep s = .next (s.identified s.res.sig) := by
  have port : s.portValue .resSig = some s.res.sig := if_pos valid
  rw [sessionStep, power, todo, ← State.portRead_of_value port]
  simp only [if_pos phase, State.lookAt_of_value port]

theorem Session.advance_mutating {c : Session} (h : c.phase = .writing ∨ c.phase = .erasing) :
    c.advance = { c with phase := .verifying, todo := readCommands, power := [] } := by
  rcases h with h | h <;> rw [Session.advance, h]

theorem Session.advance_reads {c : Session} (h : c.phase = .verifying ∨ c.phase = .reading) :
    c.advance = { c with phase := .poweringDown, todo := [], power := powerDownActs } := by
  rcases h with h | h <;> rw [Session.advance, h]

theorem Session.advance_poweringDown {c : Session} (h : c.phase = .poweringDown) :
    c.advance = { c with phase := .idle, todo := [], power := [] } := by
  rw [Session.advance, h]

/-- Settles O44: with nothing left to do the step is `Session.advance`. -/
theorem sessionStatesFollowTheTransitionList : Obligations.SessionStatesFollowTheTransitionList := by
  intro s unmarked idle waiting todo power
  have advances (inside : s.sess.phase ≠ .idle ∧ s.sess.phase ≠ .identifying) :
      step s = .next { s with sess := s.sess.advance } := by
    rw [step_session unmarked idle waiting inside.1, sessionStep_advance power todo inside.2]
  refine ⟨fun h => ?_, fun h => ?_, fun h => ?_⟩
  · rw [advances (by rcases h with h | h <;> rw [h] <;> decide), Session.advance_mutating h, ← power]
    rfl
  · rw [advances (by rcases h with h | h <;> rw [h] <;> decide), Session.advance_reads h, ← todo]
    rfl
  · rw [advances (by rw [h]; decide), Session.advance_poweringDown h, ← todo, ← power]

end Sys2Proof.Machine
end

section
/-! SUPPORT. Runs of steps of the host's interface, and the power actions of a session as such a run (R97, R124). -/

namespace Sys2Proof.Machine

variable {s t u : State}

/-! ### Runs of steps -/

/-- A run of steps goes on where its first part ends. -/
theorem run_add {M : Host.Core} : ∀ {m : Nat} (n : Nat) {s t : M.State}, M.run m s = .next t → M.run (m + n) s = M.run n t
  | 0, n, s, t, h => by
    cases h
    rw [Nat.zero_add]
  | m + 1, n, s, t, h => by
    rw [Host.Core.run] at h
    rw [Nat.succ_add, Host.Core.run]
    cases hs : M.step s with rw [hs] at h
    | next u => exact run_add n h
    | fault r => cases h
    | refused r => cases h

/-- One step is a run. -/
theorem run_one {M : Host.Core} {s t : M.State} (h : M.step s = .next t) : M.run 1 s = .next t := by
  simp only [Host.Core.run, h]

/-- `n` steps lead from `s` to `t`. -/
def State.Leads (n : Nat) (s t : State) : Prop := Host.Core.run Sys2Proof.core n s = .next t

theorem State.Leads.refl (s : State) : State.Leads 0 s s := rfl

theorem State.Leads.trans {m n : Nat} (h : State.Leads m s t) (k : State.Leads n t u) : State.Leads (m + n) s u :=
  (run_add n h).trans k

theorem State.Leads.of_step (h : Machine.step s = .next t) : State.Leads 1 s t :=
  run_one (M := Sys2Proof.core) h

/-! ### Power actions -/

/-- The rails after power actions, the first one first. -/
def Rails.acts (acts : List PowerAct) (r : Rails) : Rails := acts.foldl (fun r a => r.act a) r

/-- The power-up of R124 leaves a target without power up and ready, whatever the levels were. -/
theorem Rails.acts_powerUp {r : Rails} (off : r.stage = .off) :
    r.acts powerUpActs = { vcc := true, resetIsHigh := false, responseIsInput := true, stage := .stabilize 300 } := by
  obtain ⟨vcc, high, input, stage⟩ := r
  cases off
  rfl

/-- The power-down of R124 switches 12 V and VCC off, whatever went before. -/
theorem Rails.acts_powerDown (r : Rails) :
    r.acts powerDownActs = { r with vcc := false, resetIsHigh := true, stage := .off } :=
  Rails.act_vccOff (r.act .resetHigh)

/-- An active session performs its power actions, one a step, and touches nothing but the rails and the target (R93). -/
theorem powerActs_lead : ∀ {acts : List PowerAct} {s : State}, s.mark = none → s.busy = false → portActFirst s.host = false →
    s.sess.phase ≠ .idle → s.sess.power = acts → ∃ target draws, State.Leads acts.length s
      { s with sess := { s.sess with power := [] }, rails := s.rails.acts acts, target := target, draws := draws }
  | [], s, _, _, _, _, power => by
    have same : ({ s.sess with power := [] } : Session) = s.sess := by rw [← power]
    exact ⟨s.target, s.draws, by rw [same]; exact .refl s⟩
  | a :: acts, s, unmarked, idle, waiting, active, power => by
    have first : step s = .next { s.powerAct a with sess := { s.sess with power := acts } } := by
      rw [step_session unmarked idle waiting active, sessionStep_power power]
    obtain ⟨target, draws, rest⟩ := powerActs_lead (s := { s.powerAct a with sess := { s.sess with power := acts } })
      unmarked idle waiting active rfl
    exact ⟨target, draws, List.length_cons ▸ Nat.add_comm 1 acts.length ▸ (State.Leads.of_step first).trans rest⟩

/-- A host that requests a session of an idle controller starts its power-up (R97). -/
theorem step_request {m : Mode} (unmarked : s.mark = none) (idle : s.busy = false) (request : s.host = [.request m])
    (noSession : s.sess.phase = .idle) : step s = .next { s with host := [], sess := s.sess.start m } := by
  rw [step_idle unmarked idle, idleStep_noSession noSession, hostStep, request]

/-- Settles O42: the request, the eight actions of `powerUpActs`, and the transition to `Identifying`. -/
theorem requestPowersTheTargetUp : Obligations.RequestPowersTheTargetUp := by
  intro s m unmarked idle request noSession off
  obtain ⟨target, draws, powers⟩ := powerActs_lead (s := { s with host := [], sess := s.sess.start m }) unmarked idle rfl
    (by decide : SessionPhase.poweringUp ≠ .idle) rfl
  let up : State := { s with
    host := [], sess := { s.sess.start m with power := [] }, rails := s.rails.acts powerUpActs, target := target, draws := draws }
  have last : step up = .next { up with sess := up.sess.advance } := by
    rw [step_session (s := up) unmarked idle rfl (by decide : SessionPhase.poweringUp ≠ .idle),
      sessionStep_advance rfl rfl (by decide : SessionPhase.poweringUp ≠ .identifying)]
  have rails : up.rails = { vcc := true, resetIsHigh := false, responseIsInput := true, stage := .stabilize 300 } :=
    Rails.acts_powerUp off
  refine ⟨{ up with sess := up.sess.advance },
    ((State.Leads.of_step (step_request unmarked idle request noSession)).trans powers).trans (.of_step last), ?_, ?_, ?_, ?_,
    rfl, rfl, rfl, idle, rfl, rfl⟩
  · exact congrArg Rails.ready rails
  · exact congrArg Rails.vcc rails
  · exact congrArg Rails.resetIsHigh rails
  · exact congrArg Rails.responseIsInput rails

end Sys2Proof.Machine
end

section
/-! SUPPORT. A whole session (R97 to R106): what its power actions, its commands and its transitions lead to, each as a run of
steps with the commands accepted on the way, and from them the list of commands `sessionCommands` gives. -/

namespace Sys2Proof.Machine

variable {s t u : State}

/-! ### The commands on the trace -/

/-- A command as `CmdAccept` records it (R43). -/
def acceptedAs (i : Instr) : Op × Byte × Half := (i.op, i.v8, i.a16)

theorem cmdView_append (xs ys : List Event) : cmdView (xs ++ ys) = cmdView xs ++ cmdView ys := List.filterMap_append ..

@[simp] theorem cmdView_pollEvents (op : Op) (k w : Nat) (en : PollEnd) : cmdView (pollEvents op k w en) = [] := by
  cases en <;> simp [cmdView, pollEvents]

theorem cmdView_flatMap_eq_nil {α : Type} {f : α → List Event} (h : ∀ x, cmdView (f x) = []) (l : List α) :
    cmdView (l.flatMap f) = [] := by
  rw [cmdView, List.filterMap_flatMap]
  exact List.flatMap_eq_nil_iff.mpr fun x _ => h x

@[simp] theorem cmdView_bitsEvents (b : LineBind) (v a : Byte) (bits : List Bool) : cmdView (bitsEvents b v a bits) = [] :=
  cmdView_flatMap_eq_nil (fun _ => rfl) _

@[simp] theorem cmdView_txEvents (b : LineBind) (op : Op) (k : Nat) (v a : Byte) (x : TxRecord) :
    cmdView (TxRecord.events b op k v a x) = [] := by
  rw [TxRecord.events, cmdView_append, cmdView_append, cmdView_pollEvents, cmdView_bitsEvents]
  rfl

/-- No command is accepted while another one's transactions run. -/
@[simp] theorem cmdView_seqEvents (b : LineBind) (op : Op) (es : List RomEntry) (ts : List TxRecord) :
    cmdView (seqEvents b op es ts) = [] :=
  cmdView_flatMap_eq_nil (fun _ => cmdView_txEvents ..) _

/-- A command's events show that command alone. -/
theorem cmdView_commandEvents (cfg : Config) (op : Op) (argV : Byte) (argA : Half) (ts : List TxRecord) :
    cmdView (commandEvents cfg op argV argA ts) = [(op, argV, argA)] := by
  rw [commandEvents, cmdView_append, cmdView_append, cmdView_seqEvents]
  rfl

/-! ### The session's part of a run -/

/-- RDSIG is the one instruction whose command is READ_SIG (R52, R61). -/
theorem op_eq_readSig {i : Instr} : i.op = .readSig ↔ i = .rdsig := by cases i <;> simp [Instr.op]

/-- READ_SIG gives RES_SIG a value (R76). -/
theorem CommandRun.sigValid {argV : Byte} {argA : Half} {ts : List TxRecord} (h : CommandRun .readSig argV argA s t ts) :
    t.res.sigValid = true := by
  rw [h.results]; rfl

/-- Some steps lead from `s` to `t`, and the commands accepted on the way are `cmds`; without RDSIG among them, RES_SIG is as it
was (R27). -/
structure SessionRun (cmds : List Instr) (s t : State) : Prop where
  steps : ∃ n, State.Leads n s t
  commands : ∃ new, t.events = s.events ++ new ∧ cmdView new = cmds.map acceptedAs
  signature : .rdsig ∉ cmds → t.res.sig = s.res.sig ∧ t.res.sigValid = s.res.sigValid

theorem SessionRun.trans {cmds more : List Instr} (h : SessionRun cmds s t) (k : SessionRun more t u) :
    SessionRun (cmds ++ more) s u := by
  obtain ⟨⟨m, hm⟩, ⟨new, events, view⟩, signature⟩ := h
  obtain ⟨⟨n, kn⟩, ⟨new', events', view'⟩, signature'⟩ := k
  refine ⟨⟨m + n, hm.trans kn⟩, ⟨new ++ new', ?_, ?_⟩, fun without => ?_⟩
  · rw [events', events, List.append_assoc]
  · rw [cmdView_append, view, view', List.map_append]
  · rw [List.mem_append, not_or] at without
    exact ⟨(signature' without.2).1.trans (signature without.1).1, (signature' without.2).2.trans (signature without.1).2⟩

/-- Steps that touch neither the trace nor the result registers. -/
theorem SessionRun.of_same {n : Nat} (steps : State.Leads n s t) (trace : t.trace = s.trace) (res : t.res = s.res) :
    SessionRun [] s t :=
  ⟨⟨n, steps⟩, ⟨[], by rw [events_of_trace trace, List.append_nil], rfl⟩, fun _ => by rw [res]; exact ⟨rfl, rfl⟩⟩

/-- A ready state without a host action of its own, whose Session Controller stands at `c`. -/
structure State.Driven (c : Session) (s : State) : Prop extends s.Ready where
  host : s.host = []
  sess : s.sess = c

variable {p : SessionPhase} {m : Mode} {sig : Half} {todo : List Instr}

theorem State.Driven.step_eq {c : Session} (h : s.Driven c) (active : c.phase ≠ .idle) : Machine.step s = sessionStep s :=
  step_session h.unmarked h.idle (by rw [h.host]; rfl) (h.sess ▸ active)

/-- A session performs the power actions it has to. -/
theorem State.Driven.performs {acts : List PowerAct} (h : s.Driven ⟨p, m, sig, todo, acts⟩) (active : p ≠ .idle) :
    ∃ t, SessionRun [] s t ∧ t.Driven ⟨p, m, sig, todo, []⟩ ∧ t.rails = s.rails.acts acts := by
  obtain ⟨target, draws, steps⟩ :=
    powerActs_lead h.unmarked h.idle (by rw [h.host]; rfl) (by rw [h.sess]; exact active) (by rw [h.sess])
  exact ⟨_, .of_same steps rfl rfl, ⟨⟨h.idle, h.unmarked, h.quiet, h.fair⟩, h.host, by rw [h.sess]⟩, rfl⟩

/-- A session with nothing left to do goes on to its next state; `Identifying` is left by `State.Driven.leavesIdentifying`. -/
theorem State.Driven.advances (h : s.Driven ⟨p, m, sig, [], []⟩) (inside : p ≠ .idle ∧ p ≠ .identifying) :
    ∃ t, SessionRun [] s t ∧ t.Driven (Session.advance ⟨p, m, sig, [], []⟩) ∧ t.rails = s.rails := by
  have step : Machine.step s = .next { s with sess := s.sess.advance } := by
    rw [h.step_eq inside.1, sessionStep_advance (by rw [h.sess]) (by rw [h.sess]) (by rw [h.sess]; exact inside.2)]
  exact ⟨_, .of_same (.of_step step) rfl rfl,
    ⟨⟨h.idle, h.unmarked, h.quiet, h.fair⟩, h.host, congrArg Session.advance h.sess⟩, rfl⟩

/-- A session issues its next command, which completes (R93, R98). -/
theorem State.Driven.issues {i : Instr} {rest : List Instr} (h : s.Driven ⟨p, m, sig, i :: rest, []⟩) (active : p ≠ .idle) :
    ∃ t, SessionRun [i] s t ∧ t.Driven ⟨p, m, sig, rest, []⟩ ∧ (i = .rdsig → t.res.sigValid = true) := by
  let s' : State := { s with sess := ⟨p, m, sig, rest, []⟩ }
  have ready' : s'.Ready := ⟨h.idle, h.unmarked, h.quiet, h.fair⟩
  obtain ⟨t, ts, run, atRest, command, outside, quiet, fair, host⟩ := exec_completes i ready'
  have step : Machine.step s = .next t := by
    rw [h.step_eq active, sessionStep_command (by rw [h.sess]) (by rw [h.sess]), h.sess]
    exact run
  have events : t.events = s.events ++ commandEvents s'.cfg i.op i.v8 i.a16 ts := command.events_eq
  refine ⟨t, ⟨⟨1, .of_step step⟩, ⟨_, events, cmdView_commandEvents ..⟩, fun without => ?_⟩,
    ⟨⟨atRest.busy, outside.mark.trans h.unmarked, quiet, fair⟩, ?_, outside.sess⟩, ?_⟩
  · exact (exec_writtenOnlyBy run).sig fun hop => without (List.mem_singleton.mpr (op_eq_readSig.mp hop).symm)
  · exact (host (congrArg portActFirst h.host)).trans h.host
  · rintro rfl
    exact command.sigValid

/-- A session issues the commands it has to, in order (R93). -/
theorem State.Driven.issuesAll : ∀ {cmds : List Instr} {s : State}, s.Driven ⟨p, m, sig, cmds, []⟩ → p ≠ .idle →
    ∃ t, SessionRun cmds s t ∧ t.Driven ⟨p, m, sig, [], []⟩
  | [], s, h, _ => ⟨s, .of_same (.refl s) rfl rfl, h⟩
  | i :: rest, s, h, active => by
    obtain ⟨t, first, driven, -⟩ := h.issues active
    obtain ⟨u, others, done⟩ := driven.issuesAll active
    exact ⟨u, first.trans others, done⟩

/-! ### The whole session -/

/-- What R99 can decide: reads only, a chip erase, or the writes of a device's defaults. -/
theorem leaveIdentifying_cases (m : Mode) (sig : Half) : leaveIdentifying m sig = (.reading, readCommands) ∨
    leaveIdentifying m sig = (.erasing, [.erase]) ∨ ∃ p, leaveIdentifying m sig = (.writing, writeCommands p) := by
  cases m with
  | readOnly => exact .inl rfl
  | erase => exact .inr (.inl rfl)
  | writeDefaults =>
    cases h : lookupDevice sig with
    | none => left; simp only [leaveIdentifying, h]
    | some p => right; right; exact ⟨p, by simp only [leaveIdentifying, h]⟩

/-- A session's commands after RDSIG (R105). -/
def commandsAfterRdsig (m : Mode) (sig : Half) : List Instr :=
  (leaveIdentifying m sig).2 ++ if (leaveIdentifying m sig).1 = .reading then [] else readCommands

theorem sessionCommands_eq (m : Mode) (sig : Half) : sessionCommands m sig = .rdsig :: commandsAfterRdsig m sig := by
  rw [sessionCommands, commandsAfterRdsig]
  rcases leaveIdentifying_cases m sig with h | h | ⟨p, h⟩ <;> rw [h] <;> rfl

theorem rdsig_notMem_commandsAfterRdsig (m : Mode) (sig : Half) : Instr.rdsig ∉ commandsAfterRdsig m sig := by
  rw [commandsAfterRdsig]
  rcases leaveIdentifying_cases m sig with h | h | ⟨⟨low, high, ext⟩, h⟩ <;> rw [h]
  · decide
  · decide
  · cases ext <;> simp [writeCommands, readCommands]

/-- From the request to the end of RDSIG (R97, R98). -/
theorem session_identifies (ready : s.Ready) (request : s.host = [.request m]) (noSession : s.sess.phase = .idle) :
    ∃ t, SessionRun [.rdsig] s t ∧ t.Driven ⟨.identifying, m, s.sess.sig, [], []⟩ ∧ t.res.sigValid = true := by
  have start := step_request ready.unmarked ready.idle request noSession
  have requested : State.Driven ⟨.poweringUp, m, s.sess.sig, [], powerUpActs⟩ { s with host := [], sess := s.sess.start m } :=
    ⟨⟨ready.idle, ready.unmarked, rfl, ready.fair⟩, rfl, rfl⟩
  obtain ⟨t₁, powers, up, -⟩ := requested.performs (by decide)
  obtain ⟨t₂, arrives, identifying, -⟩ := up.advances (by decide)
  obtain ⟨t₃, reads, done, valid⟩ := State.Driven.issues identifying (by decide)
  exact ⟨t₃, (((SessionRun.of_same (.of_step start) rfl rfl).trans powers).trans arrives).trans reads, done, valid rfl⟩

/-- Leaving `Identifying` touches the trace and the session alone (R98, R99). -/
theorem State.identified_eq (sig : Half) (s : State) : ∃ trace, s.identified sig = { s with
    trace := trace
    sess := { s.sess with
      sig := sig, phase := (leaveIdentifying s.sess.mode sig).1, todo := (leaveIdentifying s.sess.mode sig).2 } } := by
  unfold State.identified
  split <;> exact ⟨_, rfl⟩

/-- Leaving `Identifying` with the value of RES_SIG (R98, R99). -/
theorem State.Driven.leavesIdentifying (h : s.Driven ⟨.identifying, m, sig, [], []⟩) (valid : s.res.sigValid = true) :
    ∃ t, SessionRun [] s t ∧ t.res = s.res ∧
      t.Driven ⟨(leaveIdentifying m s.res.sig).1, m, s.res.sig, (leaveIdentifying m s.res.sig).2, []⟩ := by
  have step : Machine.step s = .next (s.identified s.res.sig) := by
    rw [h.step_eq (by decide : SessionPhase.identifying ≠ .idle),
      sessionStep_identified (by rw [h.sess]) (by rw [h.sess]) (by rw [h.sess]) valid]
  have commands : ∃ new, (s.identified s.res.sig).events = s.events ++ new ∧ cmdView new = [] :=
    ⟨_, identified_events .., by split <;> rfl⟩
  obtain ⟨trace, same⟩ := State.identified_eq s.res.sig s
  refine ⟨_, ⟨⟨1, .of_step step⟩, commands, fun _ => by rw [same]; exact ⟨rfl, rfl⟩⟩, by rw [same], ?_⟩
  rw [same]
  exact ⟨⟨h.idle, h.unmarked, h.quiet, h.fair⟩, h.host, by rw [h.sess]⟩

/-- From a state that mutates nothing to `Idle`, with the target powered down (R103, R104). -/
theorem State.Driven.powersDown (h : s.Driven ⟨p, m, sig, [], []⟩) (reads : p = .verifying ∨ p = .reading) :
    ∃ t, SessionRun [] s t ∧ t.Driven ⟨.idle, m, sig, [], []⟩ ∧ t.rails.vcc = false ∧ t.rails.resetIsHigh = true := by
  have advance := Session.advance_reads (c := ⟨p, m, sig, [], []⟩) reads
  obtain ⟨t₁, down, driven, -⟩ := h.advances (by rcases reads with rfl | rfl <;> decide)
  rw [advance] at driven
  obtain ⟨t₂, powers, off, rails⟩ := driven.performs (by decide)
  obtain ⟨t₃, ends, idle, same⟩ := off.advances (by decide)
  rw [Rails.acts_powerDown] at rails
  exact ⟨t₃, (down.trans powers).trans ends, idle, by rw [same, rails], by rw [same, rails]⟩

/-- A mutating state is followed by `Verifying` and its reads (R100 to R102). -/
theorem State.Driven.verifies (h : s.Driven ⟨p, m, sig, [], []⟩) (mutates : p = .writing ∨ p = .erasing) :
    ∃ t, SessionRun readCommands s t ∧ t.Driven ⟨.verifying, m, sig, [], []⟩ := by
  have advance := Session.advance_mutating (c := ⟨p, m, sig, [], []⟩) mutates
  obtain ⟨t₁, goes, driven, -⟩ := h.advances (by rcases mutates with rfl | rfl <;> decide)
  rw [advance] at driven
  obtain ⟨t₂, reads, done⟩ := driven.issuesAll (by decide)
  exact ⟨t₂, goes.trans reads, done⟩

/-- A mutating state is passed, with the reads of `Verifying` after its commands, to `Idle` (R100 to R104). -/
theorem State.Driven.finishes_mutating {cmds : List Instr} (h : s.Driven ⟨p, m, sig, cmds, []⟩)
    (mutates : p = .writing ∨ p = .erasing) : ∃ t, SessionRun (cmds ++ readCommands) s t ∧
      t.Driven ⟨.idle, m, sig, [], []⟩ ∧ t.rails.vcc = false ∧ t.rails.resetIsHigh = true := by
  obtain ⟨t₁, plays, done⟩ := h.issuesAll (by rcases mutates with rfl | rfl <;> decide)
  obtain ⟨t₂, verifies, verified⟩ := done.verifies mutates
  obtain ⟨t₃, down, idle, off⟩ := verified.powersDown (.inl rfl)
  exact ⟨t₃, List.append_nil (cmds ++ readCommands) ▸ (plays.trans verifies).trans down, idle, off⟩

/-- A session that has left `Identifying` issues the rest of its commands and ends in `Idle` (R99 to R104). -/
theorem State.Driven.finishes (h : s.Driven ⟨(leaveIdentifying m sig).1, m, sig, (leaveIdentifying m sig).2, []⟩) :
    ∃ t, SessionRun (commandsAfterRdsig m sig) s t ∧ t.Driven ⟨.idle, m, sig, [], []⟩ ∧ t.rails.vcc = false ∧
      t.rails.resetIsHigh = true := by
  rw [commandsAfterRdsig]
  rcases leaveIdentifying_cases m sig with e | e | ⟨_, e⟩ <;> rw [e] at h ⊢
  · obtain ⟨t₁, plays, done⟩ := h.issuesAll (by decide)
    obtain ⟨t₂, down, idle, off⟩ := done.powersDown (.inr rfl)
    exact ⟨t₂, plays.trans down, idle, off⟩
  · exact h.finishes_mutating (.inr rfl)
  · exact h.finishes_mutating (.inl rfl)

/-- A requested session issues the commands of `sessionCommands` for the signature it reads, and ends in `Idle` with the target
powered down. -/
theorem session_plays (ready : s.Ready) (request : s.host = [.request m]) (noSession : s.sess.phase = .idle) :
    ∃ t, SessionRun (sessionCommands m t.res.sig) s t ∧ t.Driven ⟨.idle, m, t.res.sig, [], []⟩ ∧ t.res.sigValid = true ∧
      t.rails.vcc = false ∧ t.rails.resetIsHigh = true := by
  obtain ⟨t₁, identifies, identifying, valid⟩ := session_identifies ready request noSession
  obtain ⟨t₂, leaves, res, left⟩ := identifying.leavesIdentifying valid
  obtain ⟨t, finishes, idle, off⟩ := left.finishes
  obtain ⟨sig, sigValid⟩ := finishes.signature (rdsig_notMem_commandsAfterRdsig _ _)
  rw [res] at sig sigValid
  rw [← sig] at finishes idle
  exact ⟨t, sessionCommands_eq .. ▸ (identifies.trans leaves).trans finishes, idle, sigValid.trans valid, off⟩

/-- Settles O45: the commands of `session_plays` are those of the table by R99's precedence. -/
theorem everySessionPlaysItsCommandsAndPowersDown : Obligations.EverySessionPlaysItsCommandsAndPowersDown := by
  intro s m ready request noSession
  obtain ⟨t, run, driven, valid, vcc, high⟩ := session_plays ready request noSession
  obtain ⟨⟨n, steps⟩, ⟨new, events, view⟩, -⟩ := run
  obtain ⟨erase, readOnly, tiny13, six, unknown⟩ := identifyingDispatchesByPrecedence t.res.sig
  refine ⟨n, t, new, steps, by rw [driven.sess], driven.idle, vcc, high, valid, by rw [driven.sess], events, ?_, ?_, ?_, ?_, ?_⟩ <;>
    rw [view, sessionCommands] <;> rintro rfl
  · rw [readOnly]; rfl
  · rw [erase]; rfl
  · intro h; rw [tiny13 h]; rfl
  · intro h; rw [six h]; rfl
  · intro h; rw [unknown h]; rfl

end Sys2Proof.Machine
end

section
/-! SUPPORT. Refusals (R111, R112, R114): a busy block refuses every command, the mark of a refused run stays for the rest of it,
and the micro-step of a cycle in which a word is presented looks neither at the trace nor at the mark, the two records that the
word changes. -/

namespace Sys2Proof.Machine

variable {s : State}

/-! ### Refusal -/

theorem runCommand_busy (busy : s.busy = true) (op : Op) (argV : Byte) (argA : Half) :
    runCommand op argV argA s = .refused (.cmdWhileBusy (commandWord op argA argV) s.op s.step) := if_pos busy

/-- A busy block refuses every instruction, with its word (R111, R112). -/
theorem exec_busy (busy : s.busy = true) (i : Instr) : exec i s = .refused (.cmdWhileBusy (encode i) s.op s.step) := by
  rw [exec_eq_runCommand, runCommand_busy busy, encode]

/-- A step of an unmarked run with a busy block. -/
theorem step_busy (unmarked : s.mark = none) (busy : s.busy = true) : step s = busyStep s := by
  simp [step, liveStep, unmarked, busy]

/-- Settles O7: an instruction meets the refusal of `runCommand`, a presented word that of `busyStep`. -/
theorem busyBlockRefusesCommands : Obligations.BusyBlockRefusesCommands := by
  intro s busy
  refine ⟨exec_busy busy, fun w h unmarked presented => ?_⟩
  rw [step_busy unmarked busy, busyStep, presented]

/-! ### The mark lasts (R111) -/

variable {r : Refusal}

theorem refuse_marked (marked : s.mark = some r) (r' : Refusal) : (s.refuse r').mark = some r := by simp [marked]

@[simp] theorem resetCycle_mark (s : State) : s.resetCycle.mark = s.mark := by
  unfold State.resetCycle
  split <;> simp

theorem presentIdle_marked (marked : s.mark = some r) (w : CmdWord) : (s.presentIdle w).mark = some r := by
  unfold State.presentIdle
  split
  · exact (accept_outside s _ _ _).mark.trans marked
  · exact refuse_marked (s := s.raise _) marked _

/-- Whatever the host does in a cycle, the reason of the first refusal stays (log 8). -/
theorem clk_marked (marked : s.mark = some r) (p : Pins) (tick : Bool) : (s.clk p tick).mark = some r := by
  rcases State.clk_cases p tick s with h | ⟨-, h | h⟩ | ⟨-, h | h⟩ <;> rw [h]
  · rw [resetCycle_mark, marked]
  · rw [(micro_outside tick s).mark, marked]
  · rw [(micro_outside tick _).mark]
    exact refuse_marked (s := s.raise _) marked _
  · exact marked
  · exact presentIdle_marked marked _

theorem cycle_marked (marked : s.mark = some r) : s.cycle.mark = some r :=
  clk_marked (s := { s with host := (hostPins s.host).2 }) marked _ _

theorem step_marked (marked : s.mark = some r) : step s = .refused r := by rw [step, marked]

theorem unlessRefused_marked (marked : s.mark = some r) : s.unlessRefused = .refused r := by rw [State.unlessRefused, marked]

/-- In a marked run an idle block refuses every instruction with the mark: the cycles of the command keep it. -/
theorem exec_marked (marked : s.mark = some r) (idle : s.busy = false) (i : Instr) : exec i s = .refused r := by
  rw [exec_eq_runCommand, runCommand, if_neg (by simp [idle])]
  have accepted : (s.accept i.op i.v8 i.a16).envTick.mark = some r := (accept_outside s _ _ _).mark.trans marked
  exact unlessRefused_marked (runFuel_induction (P := fun u => u.mark = some r) (fun _ _ => cycle_marked) _ accepted)

/-- An instruction that answers a next state was accepted by an idle block in an unmarked run, and leaves the run unmarked. -/
theorem exec_next_unmarked {i : Instr} {t : State} (run : exec i s = .next t) : s.mark = none ∧ t.mark = none := by
  have answered := run
  rw [exec_eq_runCommand, runCommand_eq_next] at answered
  obtain ⟨idle, -, unmarked⟩ := answered
  refine ⟨?_, unmarked⟩
  cases marked : s.mark with
  | none => rfl
  | some r => rw [exec_marked marked idle] at run; cases run

/-- Settles O9: the mark is kept by every cycle, and so by the cycles of a command. -/
theorem markedRunStaysRefused : Obligations.MarkedRunStaysRefused :=
  ⟨fun _ _ marked => ⟨step_marked marked, cycle_marked marked, fun i idle => exec_marked marked idle i⟩,
    fun _ _ _ run => exec_next_unmarked run⟩

/-! ### What does not look at the trace and the mark -/

/-- The state with another event trace and another refusal mark. -/
def State.withRecords (trace : List Event) (mark : Option Refusal) (s : State) : State := { s with trace := trace, mark := mark }

/-- On `s`, `f` appends events, the same ones and with the same effect on everything else, whatever the trace and the mark
are. -/
def Appends (f : State → State) (s : State) : Prop :=
  ∃ new, ∀ trace mark, f (s.withRecords trace mark) = (f s).withRecords (new ++ trace) mark

section
variable (trace : List Event) (mark : Option Refusal) (s : State)

theorem withRecords_entry :
    (s.withRecords trace mark).seq[(s.withRecords trace mark).step.toNat]? = s.seq[s.step.toNat]? := rfl

theorem withRecords_pos : (s.withRecords trace mark).pos = s.pos := rfl

theorem withRecords_bs : (s.withRecords trace mark).bs = s.bs := rfl

theorem withRecords_sdoGiven : (s.withRecords trace mark).sdoGiven = s.sdoGiven := rfl

theorem sdoRead_withRecords : (s.withRecords trace mark).sdoRead = s.sdoRead.withRecords trace mark := by
  unfold State.sdoRead
  rw [withRecords_sdoGiven]
  split <;> rfl

theorem targetBegin_withRecords : (s.withRecords trace mark).targetBegin = s.targetBegin.withRecords trace mark := by
  unfold State.targetBegin
  rw [withRecords_pos]
  split <;> rfl

theorem startEntry_withRecords : (s.withRecords trace mark).startEntry = s.startEntry.withRecords trace mark := by
  unfold State.startEntry
  rw [withRecords_entry]
  split <;> rfl

theorem sinkResult_withRecords : (s.withRecords trace mark).sinkResult = s.sinkResult.withRecords trace mark := by
  unfold State.sinkResult
  rw [withRecords_entry]
  split <;> rfl

end

theorem Appends.comp {f g : State → State} (hf : Appends f s) (hg : Appends g (f s)) : Appends (fun u => g (f u)) s := by
  obtain ⟨new, hf⟩ := hf
  obtain ⟨more, hg⟩ := hg
  exact ⟨more ++ new, fun trace mark => by simp only [hf, hg, List.append_assoc]⟩

/-- A branch on neither of them. -/
theorem Appends.ite {f g : State → State} (c : Prop) [Decidable c] (hf : Appends f s) (hg : Appends g s) :
    Appends (fun u => if c then f u else g u) s := by
  split
  · exact hf
  · exact hg

theorem pollDecide_appends (b : Bool) (s : State) : Appends (State.pollDecide b) s :=
  have ready : Appends (fun u => { u.emit (.pollExit .ready) with bs := .drive }) s := ⟨[_], fun _ _ => rfl⟩
  have timeout : Appends (fun u => { (u.emit (.pollExit .timeout)).raise (.pollTimeout s.op s.step) with bs := .drive }) s :=
    ⟨[_, _], fun _ _ => rfl⟩
  have waits : Appends (fun u => u) s := ⟨[], fun _ _ => rfl⟩
  ready.ite (b = true) (timeout.ite (s.cfg.tPoll ≤ s.pollT) waits)

theorem pollStep_appends (tick : Bool) (s : State) : Appends (State.pollStep tick) s := by
  have sampled : Appends (fun u => u.sdoRead.emit (.pollSample s.sdo)) s :=
    ⟨[.pollSample s.sdo], fun trace mark => by simp only [sdoRead_withRecords]; rfl⟩
  have decided := sampled.comp (pollDecide_appends s.sdo _)
  cases tick with
  | false => exact decided
  | true => exact decided.comp (g := fun u => { u with pollT := u.pollT + 1 }) ⟨[], fun _ _ => rfl⟩

theorem driveStep_appends (s : State) : Appends State.driveStep s :=
  ⟨[.drive s.pos s.lineNow.1 s.lineNow.2], fun trace mark => by unfold State.driveStep; rw [targetBegin_withRecords]; rfl⟩

theorem sampleStep_appends (s : State) : Appends State.sampleStep s :=
  ⟨[.sample s.pos s.sdo], fun trace mark => by unfold State.sampleStep; rw [sdoRead_withRecords]; rfl⟩

theorem txClosed_appends (s : State) : Appends State.txClosed s :=
  ⟨[.txDone (frameByte s.fv) (frameByte s.fa) (frameByte s.acc), .clkLow s.pos], fun trace mark => by
    unfold State.txClosed
    rw [← sinkResult_withRecords]
    rfl⟩

theorem sequence_appends (s : State) : Appends State.sequence s :=
  have next : Appends (fun u => State.startEntry { u with step := u.step + 1 }) s :=
    ⟨[], fun trace mark => startEntry_withRecords trace mark { s with step := s.step + 1 }⟩
  have done : Appends (fun u => { u.emit (.cmdDone u.op) with
      res := finishResults u.op (u.res, u.sigacc), busy := false }) s := ⟨[.cmdDone s.op], fun _ _ => rfl⟩
  next.ite (s.step.toNat + 1 < s.seq.length) done

theorem clkLowStep_appends (s : State) : Appends State.clkLowStep s := by
  by_cases last : s.pos = 0
  · obtain ⟨new, closed⟩ := (txClosed_appends s).comp (sequence_appends _)
    refine ⟨new, fun trace mark => ?_⟩
    rw [clkLowStep_last last, clkLowStep_last (s := s.withRecords trace mark) last]
    exact closed trace mark
  · refine ⟨[.clkLow s.pos], fun trace mark => ?_⟩
    rw [clkLowStep_inner last, clkLowStep_inner (s := s.withRecords trace mark) last]
    rfl

/-- No micro-step looks at the trace or the mark (log 16). -/
theorem micro_appends (tick : Bool) (s : State) : Appends (State.micro tick) s := by
  unfold Appends State.micro
  simp only [withRecords_bs]
  cases s.bs with
  | idle => exact ⟨[], fun _ _ => rfl⟩
  | poll => exact pollStep_appends tick s
  | drive => exact driveStep_appends s
  | sample => exact sampleStep_appends s
  | clkh => exact ⟨[.clkHigh s.pos], fun _ _ => rfl⟩
  | clkl => exact clkLowStep_appends s

/-! ### The disturbed cycle -/

theorem presentBusy_eq (w : CmdWord) (s : State) : s.presentBusy w =
    s.withRecords (.cmdWhileBusy w s.op s.step :: s.trace) (s.mark.or (some (.cmdWhileBusy w s.op s.step))) := rfl

/-- A cycle of a busy block with nothing presented. -/
theorem cycle_quietFirst (busy : s.busy = true) (h : List HostAct) :
    State.cycle { s with host := .quiet :: h } = ((s.withHost h).micro s.time.tick).envTick := by
  simp [State.cycle, State.clk, hostPins, Pins.quiet, busy, State.withHost]

/-- A cycle of a busy block with a command word presented (R114). -/
theorem cycle_presentFirst (busy : s.busy = true) (w : CmdWord) (h : List HostAct) :
    State.cycle { s with host := .present w :: h } = (((s.withHost h).presentBusy w).micro s.time.tick).envTick := by
  simp [State.cycle, State.clk, hostPins, busy, State.withHost]

/-- Settles O8: the presented word changes the two records before the micro-step, which looks at neither. -/
theorem commandWhileBusyDoesNotDisturbTheMicroStep : Obligations.CommandWhileBusyDoesNotDisturbTheMicroStep := by
  intro s w h busy
  obtain ⟨new, same⟩ := micro_appends s.time.tick (s.withHost h)
  have plainTrace : ((s.withHost h).micro s.time.tick).trace = new ++ s.trace :=
    congrArg State.trace (same s.trace s.mark)
  simp only [cycle_quietFirst busy, cycle_presentFirst busy, presentBusy_eq, same]
  refine ⟨rfl, rfl, new.reverse, ?_, ?_⟩
  · simp [State.events, plainTrace]
  · simp [State.events, State.withRecords, State.withHost]

end Sys2Proof.Machine
end

section
/-! SUPPORT. The reference target after an `rst` that abandons a command (R107, R122, I4): its state is drawn at once, and the loss
of step lasts until power-down. -/

namespace Sys2Proof.Machine

variable {r r₂ : RefTarget}

/-- An abort draws every field but `sync` and the busy times still to come (log 19). -/
theorem RefTarget.abort_congr (times : r₂.busyTimes = r.busyTimes) (sync : r₂.sync = r.sync) (n : Nat) :
    r₂.abort n = r.abort n := by simp [RefTarget.abort, RefTarget.scramble, times, sync]

theorem RefTarget.inStep_of_lost (lost : r.lost = true) : r.inStep = false := by simp [RefTarget.inStep, lost]

/-- An `rst` on a busy block aborts the target's command, whatever `cmd_valid` is (R122). -/
theorem clk_rst_target {s : State} (busy : s.busy = true) (target : s.target = .reference r) (valid tick : Bool) (w : CmdWord) :
    (s.clk ⟨true, valid, w⟩ tick).target = .reference (r.abort s.draws) := by
  rw [show s.clk ⟨true, valid, w⟩ tick = s.resetCycle from rfl, resetCycle_target, if_pos busy, target]
  rfl

/-- Settles O50: the target is `RefTarget.abort` of what it was, in which nothing but the two fields is left of it. -/
theorem resetAbortMakesTheTargetAFreeDraw : Obligations.ResetAbortMakesTheTargetAFreeDraw := by
  intro s valid tick w r busy target
  refine ⟨r.abort s.draws, clk_rst_target busy target valid tick w, rfl, rfl, fun r₂ times sync => ?_, fun a pos lo hi => ?_⟩
  · rw [clk_rst_target (s := { s with target := .reference r₂ }) busy rfl, RefTarget.abort_congr times sync]
  · exact RefTarget.bitLevel_outOfStep lo hi (RefTarget.inStep_of_lost rfl)

theorem RefTarget.lost_lasts : RefTarget.Lasts fun r => r.lost = true where
  begins _ _ h := by simp [h]
  finishes _ _ _ _ h := by simp [h]
  ticks _ h := h
  aborts _ _ _ := rfl

/-- A response bit of a lost target is a free draw, whether or not the target's level reaches the block (I4, R124). -/
theorem sdo_of_lost {s : State} (target : s.target = .reference r) (lost : r.lost = true) (hb : s.bs = .sample)
    (lo : 2 ≤ s.pos.toNat) (hi : s.pos.toNat ≤ 9) : s.sdo = s.freeLevel := by
  apply sdo_of_free
  cases ready : s.rails.ready with
  | false => exact sdoGiven_not_ready ready
  | true => rw [sdoGiven_sample ready hb target, RefTarget.bitLevel_outOfStep lo hi (RefTarget.inStep_of_lost lost)]

/-- Settles O56: of all a step can do, only VCC off, or VCC on without power, ends the loss of step. -/
theorem lossOfStepOfAnAbortLastsUntilPowerDown : Obligations.LossOfStepOfAnAbortLastsUntilPowerDown := by
  intro s r target lost
  have has : s.target.Has fun r => r.lost = true := ⟨r, target, lost⟩
  refine ⟨sdo_of_lost target lost, cycle_keeps RefTarget.lost_lasts has,
    fun _ _ run => exec_keeps RefTarget.lost_lasts run has, fun t on run stillOn => ?_⟩
  refine (step_eq_next run).2.keeps RefTarget.lost_lasts (fun a rails q hq => ?_) has
  have notOff : a ≠ .vccOff := by
    rintro rfl
    exact stillOn (by rw [rails, Rails.act_vccOff])
  rw [RefTarget.onPower_lost q notOff on, hq]

end Sys2Proof.Machine
end

section
/-! SUPPORT. How a session leaves `Identifying` (R96, R98, R99, R107): with what the host reads at RES_SIG, and with the event of an
unknown signature. -/

namespace Sys2Proof.Machine

variable {s : State}

/-- The signatures that R96's table does not have. -/
theorem lookupDevice_isNone (sig : Half) : (lookupDevice sig).isNone = true ↔
    sig ∉ [(0x9007 : Half), 0x910B, 0x9108, 0x9207, 0x9206, 0x930C, 0x930B] := by
  rw [Option.isNone_iff_eq_none, lookupDevice, List.lookup_eq_none_iff]
  simp [deviceTable]

theorem portValue_resSig (valid : s.res.sigValid = true) : s.portValue .resSig = some s.res.sig := if_pos valid

theorem portValue_resSig_none (invalid : s.res.sigValid = false) : s.portValue .resSig = none :=
  if_neg (ne_true_of_eq_false invalid)

/-- What a host reads at RES_SIG: its value, or a free draw (R28; log 21). -/
theorem portRead_resSig (s : State) :
    s.portRead .resSig = if s.res.sigValid then s.res.sig else Config.freePort s.draws := by
  cases valid : s.res.sigValid with
  | true => exact State.portRead_of_value (portValue_resSig valid)
  | false =>
    rw [State.portRead_of_none (portValue_resSig_none valid)]
    simp [Port.width]

/-- A look at RES_SIG faults the run where it has no value (R28). -/
theorem lookAt_resSig_faults (s : State) :
    (s.lookAt .resSig).faults = if s.res.sigValid then s.faults else .resSig :: s.faults := by
  cases valid : s.res.sigValid with
  | true => rw [State.lookAt_of_value (portValue_resSig valid)]; rfl
  | false => rw [State.lookAt_of_none (portValue_resSig_none valid)]; rfl

/-- With nothing left to do, `Identifying` is left with what the host reads at RES_SIG (R98). -/
theorem step_leavesIdentifying (unmarked : s.mark = none) (idle : s.busy = false) (waiting : portActFirst s.host = false)
    (phase : s.sess.phase = .identifying) (todo : s.sess.todo = []) (power : s.sess.power = []) :
    step s = .next ((s.lookAt .resSig).identified (s.portRead .resSig)) := by
  rw [step_session unmarked idle waiting (by rw [phase]; decide), sessionStep, power, todo]
  exact if_pos phase

/-- Settles O53: the step is the host's look at RES_SIG and `State.identified` with what it reads. -/
theorem unknownSignatureIsReportedByTheHost : Obligations.UnknownSignatureIsReportedByTheHost := by
  intro s unmarked idle waiting phase todo power
  simp only [← portRead_resSig, ← lookAt_resSig_faults]
  refine ⟨_, step_leavesIdentifying unmarked idle waiting phase todo power, ?_, ?_⟩
  · rw [identified_events, State.lookAt_events]
    simp only [lookupDevice_isNone, ite_not]
  · obtain ⟨trace, same⟩ := State.identified_eq (s.portRead .resSig) (s.lookAt .resSig)
    rw [same]
    simp [idle]

end Sys2Proof.Machine
end

section
/-! SUPPORT. What a cycle with `rst` = 1 leaves in the block (R31, R114, R122). -/

namespace Sys2Proof.Machine

variable (s : State)

/-- `rst` comes before a presented command and before the micro-step, whatever `cmd_valid` is (R114, R122). -/
theorem clk_rst (valid tick : Bool) (w : CmdWord) : s.clk ⟨true, valid, w⟩ tick = s.resetCycle := rfl

theorem resetCycle_atRest : s.resetCycle.AtRest := by
  unfold State.resetCycle
  split <;> exact ⟨rfl, rfl, rfl, rfl, rfl⟩

theorem resetCycle_step : s.resetCycle.step = 0 := by unfold State.resetCycle; split <;> rfl
theorem resetCycle_pollT : s.resetCycle.pollT = 0 := by unfold State.resetCycle; split <;> rfl
theorem resetCycle_levels : s.resetCycle.levels = s.levels := by unfold State.resetCycle; split <;> rfl

/-- An abort keeps the results, and a reset of an idle block ends their values (R31, R122; log 3). -/
theorem resetCycle_res : s.resetCycle.res = if s.busy then s.res else Results.reset := by
  unfold State.resetCycle; split <;> rfl

/-- Only an abort takes free draws, for the target (R107). -/
theorem resetCycle_draws : s.resetCycle.draws = if s.busy then s.draws + RefTarget.draws else s.draws := by
  unfold State.resetCycle; split <;> rfl

/-- Settles O30: the cycle is `State.resetCycle`, and its events, results and draws go by `busy`. -/
theorem resetAbandonsTheCommandInProgress : Obligations.ResetAbandonsTheCommandInProgress := by
  intro s valid tick w
  rw [clk_rst]
  obtain ⟨busy, bs, sii, sdi, sci⟩ := resetCycle_atRest s
  refine ⟨busy, bs, resetCycle_step s, resetCycle_pollT s, sii, sdi, sci, resetCycle_levels s,
    fun running => ⟨?_, ?_⟩, fun idle => ⟨?_, ?_⟩⟩
  · rw [resetCycle_events, if_pos running]
  · rw [resetCycle_res, if_pos running]
  · simp [resetCycle_events, idle]
  · simp [resetCycle_draws, idle]

end Sys2Proof.Machine
end

section
/-! SUPPORT. A power-up that is not as R124 says: a command makes one wrong that is still going on, only VCC off ends it, and no
target's level reaches the block from it (R124, R128). -/

namespace Sys2Proof.Machine

variable {s : State} {q : Rails}

/-- A command makes a power-up wrong that has begun and is not complete (R124; log 14). -/
theorem Rails.atCommand_stage_wrong (begun : q.stage ≠ .off) (incomplete : q.powered = false) :
    q.atCommand.stage = .wrong := by
  obtain ⟨vcc, high, input, stage⟩ := q
  cases stage with
  | off => exact absurd rfl begun
  | vccSettle us => rfl
  | resetAssert us => rfl
  | stabilize us => exact if_neg (of_decide_eq_false incomplete)
  | wrong => rfl

theorem Rails.powered_of_wrong (wrong : q.stage = .wrong) : q.powered = false := by rw [Rails.powered, wrong]

/-- A wrong power-up is ended by VCC off alone (R124; log 14). -/
theorem Rails.stageAfter_wrong {a : PowerAct} (wrong : q.stage = .wrong) (notOff : a ≠ .vccOff) :
    q.stageAfter a = .wrong := by
  obtain ⟨vcc, high, input, stage⟩ := q
  cases wrong
  cases a with
  | vccOff => exact absurd rfl notOff
  | _ => rfl

/-- Power actions without VCC off among them leave a wrong power-up wrong. -/
theorem powerActs_stage_wrong : ∀ (acts : List PowerAct) {s : State}, s.rails.stage = .wrong → .vccOff ∉ acts →
    (acts.foldl (fun u a => u.powerAct a) s).rails.stage = .wrong
  | [], _, wrong, _ => wrong
  | a :: acts, s, wrong, noOff => by
    rw [List.mem_cons, not_or] at noOff
    obtain ⟨first, rest⟩ := noOff
    exact powerActs_stage_wrong acts (s := s.powerAct a) (Rails.stageAfter_wrong wrong (Ne.symm first)) rest

/-- Settles O51: either condition makes `Rails.ready` false. -/
theorem withoutPowerUpEveryLevelIsFree : Obligations.WithoutPowerUpEveryLevelIsFree := by
  intro s unready
  exact sdo_of_free (sdoGiven_not_ready (Bool.and_eq_false_iff.mpr unready))

/-- Settles O54: the command's acceptance makes the power-up wrong, and each power action but VCC off leaves it so. -/
theorem commandBeforePowerUpEndsMakesItWrong : Obligations.CommandBeforePowerUpEndsMakesItWrong := by
  refine ⟨fun i s ready begun incomplete => ?_, fun s acts wrong noOff => ?_⟩
  · obtain ⟨t, -, run, -, -, outside, -⟩ := exec_completes i ready
    refine ⟨t, run, ?_, ?_, ?_, ?_⟩ <;> rw [outside.rails]
    · exact Rails.atCommand_stage_wrong begun incomplete
    · exact Rails.atCommand_vcc _
    · exact Rails.atCommand_resetIsHigh _
    · exact Rails.atCommand_responseIsInput _
  · have stage := powerActs_stage_wrong acts wrong noOff
    exact ⟨stage, withoutPowerUpEveryLevelIsFree _ (.inl (Rails.powered_of_wrong stage))⟩

end Sys2Proof.Machine
end
